-- ==== Sys2Proof/Word.lean ====
section
/-! DEFINITION. Word.lean: the word types of the register interface and of the stored data, and the
sparse table that holds addressed state (R3 to R5 of 00_scope.md: registers are 32 bits wide and every
multi-byte value is little-endian). -/
namespace Sys2Proof

/-- One byte. -/
abbrev W8 := BitVec 8
/-- A 16-bit value: event codes, BF16 codes, format fields. -/
abbrev W16 := BitVec 16
/-- One register, one operand register of a thread, one FP32 or INT32 code. -/
abbrev W32 := BitVec 32
/-- A 64-bit counter pair, a module time, a remote address. -/
abbrev W64 := BitVec 64
/-- A byte string, lowest address first. -/
abbrev Bytes := List W8

/-- A sparse table by number, in one canonical form: keys strictly rising, and no entry equal to the
table's default (what an unlisted key reads as). Machine/Bits.lean holds its operations. -/
abbrev Tab (β : Type) := List (Nat × β)

end Sys2Proof
end

