-- ==== Sys2Proof/Syntax.lean ====
section
/-! DEFINITION. Syntax.lean: the commands of the block, one constructor per row of
spec/opcode_table.json, and the operand types that they carry. A command is a request of an outside
agent or a happening inside the module (95_what_each_step_holds.md). -/
namespace Sys2Proof

/-- A PCIe function (Table MOD-1): 0 is PF0, k is VF k. -/
abbrev Fn := Fin 33

/-- A scope of dual approval, of a sweep engine or of an event ring (R50, R315, R380): the module, or
one chamber. -/
inductive Scope where
  | module
  | chamber (n : Fin 32)
  deriving DecidableEq, Repr

/-- The SPDM session a vendor command came in, by its session id; `none` outside every session
(R383). -/
abbrev Sess := Option (BitVec 32)

/-- Where a resident thread group sits: global core id and resident group slot (Table THR-9). -/
structure Loc where
  core : Fin 1024
  slot : Fin 16
  deriving DecidableEq, Repr

/-- A window content that a lane delivers with an error (R119): the column within the run, the lane, the group of
the step, and what is added to the right content, in quanta of the window. -/
structure WindowErr where
  col : Fin 64
  lane : Fin 128
  group : Fin 32
  delta : Int
  deriving DecidableEq, Repr

/-- An element that the broadcast wires deliver wrong to every lane (Table CHK-1): the column within the run, the K
position of the step, and the code delivered. -/
structure WireErr where
  col : Fin 64
  k : Fin 128
  code : W16
  deriving DecidableEq, Repr

/-- An error of the checksum lane's own sum (R128) in the step of a column of the run: num × 2^exp. -/
structure SumErr where
  col : Fin 64
  num : Int
  exp : Int
  deriving DecidableEq, Repr

/-- What goes wrong on one core in the run of columns of its first failing compare (R127 to R129): the core, its work
unit, the pass of the unit (0, or a pass over an adapter), the K step and the run, the errors of lanes, wires and
checksum lane, whether the run's check step was issued before the core's stop, and the module time of the failing
step. Which compares fail follows from the operands and the errors. -/
structure CoreFault where
  core : Fin 1024
  unit : Nat
  pass : Nat
  step : Nat
  run : Nat
  windows : List WindowErr
  wires : List WireErr
  sums : List SumErr
  checked : Bool
  time : W64
  deriving DecidableEq, Repr

/-- The errors of one received codeword (R283, Table LNK-12): symbols in error, and bits in error. -/
structure CwErr where
  symbols : BitVec 10
  bits : BitVec 13
  deriving DecidableEq, Repr

/-- What the last training step exchanged (R301, R304): the peer's LINK_ID, its module id and port,
its reported ACK, the duration in units of 100 µs (Table LNK-12), and the port's eight calibration
words (R302). -/
structure TrainResult where
  linkId : W32
  module : BitVec 12
  port : BitVec 5
  ack : Option (BitVec 12)
  duration : W16
  cal : List W32
  deriving DecidableEq, Repr

/-- A data bond that failed a bond test (R324, R326): core, tier, group, bond (16 is the spare). -/
structure BondFail where
  core : Fin 1024
  tier : Bool
  group : BitVec 6
  bond : BitVec 5
  deriving DecidableEq, Repr

/-- What start-up step 6 found (R321, R326): failing slice checkers, failing channel checkers,
failing bonds. -/
structure SelfTest where
  slices : List (Fin 1024)
  channels : List (Fin 64)
  bonds : List BondFail
  deriving DecidableEq, Repr

/-- The rails of a stack that the damper does not govern (Table PWR-5). -/
inductive Rail where
  | vddB
  | vddS
  | vddP
  | vdd1
  | vdd2h
  | vdd2l
  | vddq
  deriving DecidableEq, Repr

/-- One sample of the rail currents of a stack, in mA, as its regulators take it every 250 ns (R342). -/
structure RailSample where
  vddC : W32
  vddG : W32
  vddB : W32
  vddS : W32
  vddP : W32
  vdd1 : W32
  vdd2h : W32
  vdd2l : W32
  vddq : W32
  deriving DecidableEq, Repr

/-- The causes of a power trip (Table PWR-12, 0x100B). -/
inductive TripCause where
  | input
  | rail (die : Fin 2) (r : Rail)
  | regulator
  | excess
  deriving DecidableEq, Repr

/-- The PCIe capabilities that Table MOD-1 names: those it lists as presented, then those not supported. -/
inductive PcieCap where
  | pcie
  | powerManagement
  | msix
  | aer
  | ari
  | sriov
  | acs
  | resizableBar
  | serialNumber
  | tag10
  | ats
  | pasid
  | pri
  | ptm
  | l1Substates
  | clockPm
  deriving DecidableEq, Repr

/-- The configuration state that the manual names (R371 to R374, R379): identifiers, whether a capability is presented,
the SR-IOV figures, VF Enable, Bus Master Enable, the Relaxed Ordering permission, Max Payload Size Supported, Max Read
Request Size, the Resizable BAR size, MSI-X masks, memory decode and the power-management state. -/
inductive ConfigReg where
  | capability (c : PcieCap)
  | totalVfs
  | initialVfs
  | firstVfOffset
  | vfStride
  | maxPayloadSupported
  | maxReadRequest
  | vendorDevice
  | classRevision
  | serialLo
  | serialHi
  | vfEnable
  | vfCount
  | busMaster
  | relaxedOrdering
  | memoryDecode
  | bar2Size
  | msixFunctionMask
  | msixMask (vector : BitVec 11)
  | powerState
  deriving DecidableEq, Repr

/-- The commands: one constructor per row of the opcode table, in the table's order but for the rows without operands,
which stand last (Lean's runtime numbers only so many constructors that carry fields). -/
inductive Instr where
  /-- REGISTER_WRITE (R407): A BAR0 write to a register that has no row of its own, served word by word; W1C, RW and RWS fields take the written value. -/
  | registerWrite (fn : Fn) (off : BitVec 26) (data : List (Option W8))
  /-- COUNTER_LOW_READ (R6): A read of the low word of a 64-bit counter pair latches the high word into the reading function's holding copy. -/
  | counterLowRead (fn : Fn) (off : BitVec 26) (len : BitVec 13)
  /-- TIME_FLIT (R299): A TIME flit arriving on the time input port gives an offset measurement; the module updates MTB_OFFSET and loads, steps or slews its counter under R29. -/
  | timeFlit (port : Fin 24) (flit : Bytes) (errs : List CwErr)
  /-- PROGRAM (R41): STR_CMD.OP = PROGRAM starts writing the staged image to a slot after checks 1–5, or is refused with PROG = 7 and event 0x0204. -/
  | program (slot : BitVec 2)
  /-- CLEARING_COMPLETE (R48): A chamber finishes CLEARING within 1 ms, raises 0x0203 and enters IDLE, or enters HALTED if a module-wide halt occurred meanwhile. -/
  | clearingComplete (ch : Fin 32)
  /-- ENABLE (R409): CHM_CTL.ENABLE = 1 in IDLE takes the chamber to RUNNING, unless OWNER_REQ = 1 and no owner credential is set. -/
  | enable (fn : Fn) (ch : Fin 32)
  /-- HALT (R409): CHM_CTL.HALT in IDLE or RUNNING takes the chamber to HALTED with HALT_CODE 0x0206 and raises 0x0206. -/
  | halt (fn : Fn) (ch : Fin 32)
  /-- RESET (R49): CHM_CTL.RESET in IDLE, RUNNING or HALTED halts the chamber if RUNNING, then enters CLEARING, keeping its keys, owner credential and bulk contents. -/
  | reset (fn : Fn) (ch : Fin 32)
  /-- OWNER_LOCK (R53): CHM_CTL.OWNER_LOCK = 1 in IDLE with OWNER_SET = 0 installs the owner credential and sets OWNER_SET. -/
  | ownerLock (fn : Fn) (ch : Fin 32)
  /-- OKEY_WRITE (R53): A write of CHM_OKEY while OWNER_SET = 0 takes effect at once in IDLE and is ignored otherwise; after OWNER_SET it is an RWA write. -/
  | okeyWrite (fn : Fn) (ch : Fin 32) (i : Fin 24) (v : W32)
  /-- RWA_WRITE (R51): A write to an RWA register enters its offset and value in the scope's change buffer, replacing an earlier entry, or is discarded for overflow or an open proposal. -/
  | rwaWrite (fn : Fn) (off : BitVec 26) (v : W32)
  /-- PROPOSE (R52): APV_CMD.OP = PROPOSE checks the change, assigns APV_ID, nonce and deadline, computes H and raises 0x0301, or closes the proposal as REFUSED, WORN or BUSY. -/
  | propose (fn : Fn) (scope : Scope)
  /-- SUBMIT (R52): APV_CMD.OP = SUBMIT checks the owner record in APV_REC, discards it, accepts it, or closes the proposal with MISMATCH or EXPIRED. -/
  | submit (fn : Fn) (scope : Scope)
  /-- CANCEL (R52): APV_CMD.OP = CANCEL closes an open proposal as CANCELLED with event 0x0305. -/
  | cancel (fn : Fn) (scope : Scope)
  /-- DISCARD (R52): APV_CMD.OP = DISCARD empties the change buffer while COLLECTING. -/
  | discard (fn : Fn) (scope : Scope)
  /-- APV_WRITE (R383): Operator vendor command that enters a (scope, offset, value) in a change buffer and completes with code 0, 2, 3 or 4. -/
  | apvWrite (sess : Sess) (scope : W8) (off v : W32)
  /-- APV_PROPOSE (R383): Operator vendor command that opens a proposal for a scope as PROPOSE does. -/
  | apvPropose (sess : Sess) (scope : W8)
  /-- APV_SUBMIT (R52): The operator record sent in an SPDM session is checked for form and content and accepted, discarded, or closes the proposal. -/
  | apvSubmit (sess : Sess) (scope : W8) (rec : Bytes)
  /-- APV_CANCEL (R383): Operator vendor command that cancels a scope's open proposal. -/
  | apvCancel (sess : Sess) (scope : W8)
  /-- APV_READ (R383): Operator vendor command that returns a scope's APV block. -/
  | apvRead (sess : Sess) (scope : W8)
  /-- APV_DEADLINE (R52): When module time reaches APV_DL with the proposal open, the proposal closes with EXPIRED and raises 0x0303. -/
  | apvDeadline (scope : Scope)
  /-- APV_COMMIT_COMPLETE (R55): The journal and target writes of a commit finish; the change is in force, the journal is closed, and event 0x0302 is raised. -/
  | apvCommitComplete (scope : Scope)
  /-- FLOWSTONE_WRITE (R57): A flowstone write is accepted, sets BUSY and counts wear, or is refused with 0x0307; a counter reaching 100,000 sets WORN and raises 0x0306. -/
  | flowstoneWrite (index : BitVec 14) (v : W32)
  /-- ROTATION_UNIT_REWRITE (R183): One 64 B unit is rewritten under the new keys, MEM_ROT_PTR advances, and BAR2 accesses stalled on that unit proceed. -/
  | rotationUnitRewrite (ch : Fin 32)
  /-- DEBUG_READ (R62): DBG_CMD.READ = 1 starts a 32 B read of a core store or gallery word, or is refused with event 0x0205. -/
  | debugRead (die : Fin 2)
  /-- DEBUG_READ_COMPLETE (R62): Within 2 µs the debug read ends; DBG_DATA holds the result, BUSY clears and DONE sets. -/
  | debugReadComplete (die : Fin 2)
  /-- NEGOTIATE_ALGORITHMS (R63): SPDM NEGOTIATE_ALGORITHMS request answered with the supported algorithms. -/
  | negotiateAlgorithms (asym hash dhe aead : W32)
  /-- GET_DIGESTS (R63): SPDM GET_DIGESTS request answered. -/
  | getDigests (sess : Sess)
  /-- GET_CERTIFICATE (R63): SPDM GET_CERTIFICATE request answered from certificate slot 0. -/
  | getCertificate (sess : Sess) (slot : W8) (off len : W16)
  /-- CHALLENGE (R63): SPDM CHALLENGE request answered. -/
  | challenge (sess : Sess) (slot : W8)
  /-- GET_MEASUREMENTS (R64): SPDM GET_MEASUREMENTS returns the digests of Table STR-16. -/
  | getMeasurements (sess : Sess) (index : W8)
  /-- KEY_EXCHANGE (R63): SPDM KEY_EXCHANGE begins an operator session. -/
  | keyExchange (slot : W8) (reqId : W16)
  /-- FINISH (R63): SPDM FINISH completes session establishment, which makes the session the operator party. -/
  | finish (id : W32)
  /-- END_SESSION (R63): SPDM END_SESSION closes a session. -/
  | endSession (id : W32)
  /-- HEARTBEAT (R63): SPDM HEARTBEAT message in a session. -/
  | heartbeat (id : W32)
  /-- KEY_UPDATE (R63): SPDM KEY_UPDATE message in a session. -/
  | keyUpdate (id : W32) (op : W8)
  /-- DOORBELL (R216): A write of OPS_TAIL is accepted if it moves the tail forward without filling the ring, and otherwise is ignored with event 0x0B08. -/
  | doorbell (fn : Fn) (ch : Fin 32) (list : Fin 8) (v : W32)
  /-- REGISTER_WRITE_RELEASE (R217): A register write held behind incomplete BAR2 merge buffers takes effect once those buffers are written or discarded. -/
  | registerWriteRelease (fn : Fn)
  /-- DESCRIPTOR_FETCH (R221): A read of up to 8 descriptors returns; each is numbered, counted in flight, header-checked and body-checked into STAGED, or refused. -/
  | descriptorFetch (ch : Fin 32) (list : Fin 8)
  /-- OPERATION_START (R223): When the start rules hold, the bellows moves the next operation, or a chosen bank entry, into EXECUTING. -/
  | operationStart (ch : Fin 32) (list : Fin 8) (engine : Bool)
  /-- OPERATION_RETIRE (R224): An operation whose work is complete retires: counter increment, completion record and OPS_HEAD advance. -/
  | operationRetire (ch : Fin 32) (seq : W32)
  /-- MATMUL (R111): A MATMUL operation executes its work units, combine, adapter pass, dropout, conversion and output write or reduction. -/
  | matmul (ch : Fin 32) (seq : W32)
  /-- CONV (R113): A CONV operation executes over the K order of R97, using shift steps. -/
  | conv (ch : Fin 32) (seq : W32)
  /-- KERNEL (R133): A KERNEL operation launches a grid of thread blocks. -/
  | kernel (ch : Fin 32) (seq : W32)
  /-- TRANSFER (R234): A TRANSFER operation moves a byte range through its transfer stream. -/
  | transfer (ch : Fin 32) (seq : W32)
  /-- REDUCE (R238): A REDUCE operation forms a SUM, SUMSQ or MAXABS in FP64 and writes or remotely adds an FP32 result. -/
  | reduce (ch : Fin 32) (seq : W32)
  /-- UPDATE (R266): An UPDATE operation reads its parameters and norm, then skips the step or applies the Adam-type step to every element. -/
  | update (ch : Fin 32) (seq : W32)
  /-- SIGNAL (R229): A SIGNAL operation adds to or sets a local counter, or sends a remote SIGNAL message, and retires. -/
  | signal (ch : Fin 32) (seq : W32)
  /-- WAIT (R228): A WAIT operation executes until its counter meets TARGET. -/
  | wait (ch : Fin 32) (seq : W32)
  /-- EPOCH (R255): An EPOCH operation sends the current epoch's ACCUM lines and waits for the drain before advancing ECH_EPOCH. -/
  | epoch (ch : Fin 32) (seq : W32)
  /-- SNAPSHOT (R400): A SNAPSHOT operation latches the chamber and cluster operation shadows at start + 2 µs, writes the dump and sets LNT_CSEQ. -/
  | snapshot (ch : Fin 32) (seq : W32)
  /-- SEAL (R274): A SEAL operation runs the loss-spike detector, writes the SEAL record and sets ASH_SEALED. -/
  | seal (ch : Fin 32) (seq : W32)
  /-- FLUSH (R208): A FLUSH operation sends ACCUM lines in scope and invalidates READ lines in scope, then waits for acknowledgements and fills. -/
  | flush (ch : Fin 32) (seq : W32)
  /-- EPOCH_DRAIN_TIMEOUT (R256): An EPOCH whose drain is incomplete after DRAIN_TMO retires TIMEOUT, raises 0x0C01 and halts the chamber. -/
  | epochDrainTimeout (ch : Fin 32) (seq : W32)
  /-- CHECK_MISMATCH (R127): A lane or column compare fails; the cores of the chamber stop, the operation retires POISON, the chamber halts and ACCUM lines are discarded. -/
  | checkMismatch (ch : Fin 32) (seq : W32) (faults : List CoreFault)
  /-- BLOCK_DISPATCH (R134): The dispatcher places the next block once all its groups, spill areas and shared area fit on one cluster. -/
  | blockDispatch (ch : Fin 32) (seq : W32)
  /-- MEMORY_RESULT_RETURN (R141): A load or atomic result returns to a thread, making its path runnable. -/
  | memoryResultReturn (loc : Loc) (thread : Fin 32)
  /-- SLEEP_END (R162): A path's SLEEP time expires, and the path becomes runnable. -/
  | sleepEnd (loc : Loc) (thread : Fin 32)
  /-- ADD_W (R163): Instruction ADD.W. -/
  | addW (loc : Loc)
  /-- SUB_W (R163): Instruction SUB.W. -/
  | subW (loc : Loc)
  /-- MUL_W (R163): Instruction MUL.W. -/
  | mulW (loc : Loc)
  /-- MULHI_W (R163): Instruction MULHI.W: upper 32 bits of the 64-bit product. -/
  | mulhiW (loc : Loc)
  /-- MAC_W (R163): Instruction MAC.W: low 32 bits of A × B + C. -/
  | macW (loc : Loc)
  /-- AND (R163): Instruction AND. -/
  | andB (loc : Loc)
  /-- OR (R163): Instruction OR. -/
  | orB (loc : Loc)
  /-- XOR (R163): Instruction XOR. -/
  | xorB (loc : Loc)
  /-- SHL (R163): Instruction SHL. -/
  | shl (loc : Loc)
  /-- SHR (R163): Instruction SHR. -/
  | shr (loc : Loc)
  /-- SHRA (R163): Instruction SHRA. -/
  | shra (loc : Loc)
  /-- MIN_W (R163): Instruction MIN.W, following TYPE. -/
  | minW (loc : Loc)
  /-- MAX_W (R163): Instruction MAX.W, following TYPE. -/
  | maxW (loc : Loc)
  /-- CMP_W (R162): Instruction CMP.W, with the condition selected by MOD[2:0]. -/
  | cmpW (loc : Loc)
  /-- PICK (R163): Instruction PICK: B if bit 0 of C is 1, else A. -/
  | pick (loc : Loc)
  /-- ADDSAT_W (R163): Instruction ADDSAT.W, saturating at the S32 or U32 limit. -/
  | addsatW (loc : Loc)
  /-- BITCNT (R163): Instruction BITCNT. -/
  | bitcnt (loc : Loc)
  /-- LZCNT (R163): Instruction LZCNT. -/
  | lzcnt (loc : Loc)
  /-- COPY (R163): Instruction COPY. -/
  | copy (loc : Loc)
  /-- NOP (R163): Instruction NOP. -/
  | nop (loc : Loc)
  /-- ADD_F (R83): Instruction ADD.F. -/
  | addF (loc : Loc)
  /-- SUB_F (R83): Instruction SUB.F. -/
  | subF (loc : Loc)
  /-- MUL_F (R83): Instruction MUL.F. -/
  | mulF (loc : Loc)
  /-- MAC_F (R140): Instruction MAC.F: one fused multiply-add per thread. -/
  | macF (loc : Loc)
  /-- MAC_F2 (R140): Instruction MAC.F2: two fused multiply-adds per thread on register pairs. -/
  | macF2 (loc : Loc)
  /-- MIN_F (R83): Instruction MIN.F. -/
  | minF (loc : Loc)
  /-- MAX_F (R83): Instruction MAX.F. -/
  | maxF (loc : Loc)
  /-- CMP_F (R162): Instruction CMP.F, with NaN handling. -/
  | cmpF (loc : Loc)
  /-- ADD_B2 (R83): Instruction ADD.B2 on two BF16 halves. -/
  | addB2 (loc : Loc)
  /-- MUL_B2 (R83): Instruction MUL.B2 on two BF16 halves. -/
  | mulB2 (loc : Loc)
  /-- MAC_B2 (R83): Instruction MAC.B2 on two BF16 halves. -/
  | macB2 (loc : Loc)
  /-- CONV_INSTRUCTION (R160): Vector instruction CONV converts one value per thread under Table NUM-7. -/
  | convInstruction (loc : Loc)
  /-- QBLK (R160): Instruction QBLK quantises one 32-element block across the group. -/
  | qblk (loc : Loc)
  /-- DQBLK (R160): Instruction DQBLK decodes an element code and scale byte to FP32. -/
  | dqblk (loc : Loc)
  /-- RECIP (R159): Instruction RECIP. -/
  | recip (loc : Loc)
  /-- RSQRT (R159): Instruction RSQRT. -/
  | rsqrt (loc : Loc)
  /-- SQRT (R159): Instruction SQRT. -/
  | sqrt (loc : Loc)
  /-- EXP2 (R159): Instruction EXP2. -/
  | exp2 (loc : Loc)
  /-- LOG2 (R159): Instruction LOG2. -/
  | log2 (loc : Loc)
  /-- GETSR (R163): Instruction GETSR copies a special register to D. -/
  | getsr (loc : Loc)
  /-- LD (R150): Instruction LD loads from core, gallery, bulk or remote space. -/
  | ld (loc : Loc)
  /-- ST (R151): Instruction ST stores, in whole code words outside core space. -/
  | st (loc : Loc)
  /-- CPY (R151): Instruction CPY moves one whole code word between core space and the gallery or bulk. -/
  | cpy (loc : Loc)
  /-- ATOM_IADD (R155): Atomic integer add returning the old value. -/
  | atomIadd (loc : Loc)
  /-- ATOM_IMAX (R155): Atomic signed max returning the old value. -/
  | atomImax (loc : Loc)
  /-- ATOM_UMAX (R155): Atomic unsigned max returning the old value. -/
  | atomUmax (loc : Loc)
  /-- ATOM_FADD (R155): Atomic FP32 add returning the old value. -/
  | atomFadd (loc : Loc)
  /-- ATOM_CAS (R155): Atomic 32-bit compare-and-swap. -/
  | atomCas (loc : Loc)
  /-- ATOM_CAS64 (R155): Atomic 64-bit compare-and-swap. -/
  | atomCas64 (loc : Loc)
  /-- RED_IADD (R155): Reduction integer add, locally or into an INT32 add line. -/
  | redIadd (loc : Loc)
  /-- RED_IMAX (R155): Reduction signed max, locally or into a max line. -/
  | redImax (loc : Loc)
  /-- RED_UMAX (R155): Reduction unsigned max in spaces 0–2. -/
  | redUmax (loc : Loc)
  /-- RED_FADD (R199): Reduction FP32 add, locally or into an FP32 add ACCUM line. -/
  | redFadd (loc : Loc)
  /-- RED_HADD (R199): Remote reduction BF16 add into a BF16 add line. -/
  | redHadd (loc : Loc)
  /-- FENCE (R153): Instruction FENCE orders the thread's accesses at a scope. -/
  | fence (loc : Loc)
  /-- BAR (R154): Instruction BAR waits for every live thread of the block, then releases them all. -/
  | bar (loc : Loc)
  /-- SPILLW (R148): Instruction SPILLW performs one spill-engine step in trap context. -/
  | spillw (loc : Loc)
  /-- FILLW (R148): Instruction FILLW performs one fill-engine step in trap context. -/
  | fillw (loc : Loc)
  /-- BRA (R162): Instruction BRA, an unconditional branch. -/
  | bra (loc : Loc)
  /-- BRZ (R162): Instruction BRZ branches if A is zero. -/
  | brz (loc : Loc)
  /-- BRNZ (R162): Instruction BRNZ branches if A is non-zero. -/
  | brnz (loc : Loc)
  /-- CALL (R144): Instruction CALL saves the return address and moves to the next window, spilling or trapping on overflow. -/
  | call (loc : Loc)
  /-- CALLR (R162): Instruction CALLR calls the address in the pair at A. -/
  | callr (loc : Loc)
  /-- RET (R144): Instruction RET returns and moves back one window, filling or trapping on underflow, or ends the thread at depth 0. -/
  | ret (loc : Loc)
  /-- RESUME (R145): Instruction RESUME leaves trap context and re-executes the trapped CALL or RET. -/
  | resume (loc : Loc)
  /-- EXIT (R144): Instruction EXIT ends the thread. -/
  | exitT (loc : Loc)
  /-- SLEEP (R162): Instruction SLEEP suspends the path for a given module time. -/
  | sleep (loc : Loc)
  /-- CNTADD (R158): Instruction CNTADD adds to a chamber counter as a device-scope release. -/
  | cntadd (loc : Loc)
  /-- SPARK (R161): Instruction SPARK writes 128 Philox bits into four registers. -/
  | spark (loc : Loc)
  /-- INV (R181): MEM_CTL.INV = 1 starts or extends an invalidation of the chamber's cached translations. -/
  | inv (fn : Fn) (ch : Fin 32)
  /-- INVALIDATION_COMPLETE (R181): The invalidation ends within 2 µs of the latest INV write, INV_BUSY clears and a pending MEM_PTBASE takes effect. -/
  | invalidationComplete (ch : Fin 32)
  /-- BAR2_READ (R184): A host read through BAR2 returns decrypted bulk data, or 0 outside every range, with EP set on an uncorrectable word. -/
  | bar2Read (off : BitVec 36) (len : BitVec 13)
  /-- BAR2_WRITE (R184): A host write through BAR2 fills merge buffers and writes complete 64 B units, or is discarded outside every range with event 0x0908. -/
  | bar2Write (off : BitVec 36) (data : Bytes)
  /-- MERGE_BUFFER_TIMEOUT (R184): A merge buffer still incomplete 10 µs after its first byte is discarded, adds to PARTIAL and raises 0x0908. -/
  | mergeBufferTimeout (unit : BitVec 33)
  /-- ACK_DEADLINE (R210): An unacknowledged request, packet or remote SIGNAL reaching ACK_TMO raises 0x0A03 and halts the chamber. -/
  | ackDeadline (ch : Fin 32) (tag : BitVec 20)
  /-- COUNTER_WRITE (R227): A write to a counter sets its value, and every WAIT and norm wait on it is re-evaluated. -/
  | counterWrite (fn : Fn) (ch : Fin 32) (n : BitVec 12) (v : W32)
  /-- COUNTER_ADD (R227): A write to the add window adds to a counter, and the waits on it are re-evaluated. -/
  | counterAdd (fn : Fn) (ch : Fin 32) (n : BitVec 12) (v : W32)
  /-- WAIT_TIMEOUT (R231): A WAIT executing beyond its timeout retires TIMEOUT, raises 0x0B03 and halts the chamber. -/
  | waitTimeout (ch : Fin 32) (seq : W32)
  /-- KERNEL_TIMEOUT (R231): A KERNEL executing beyond its timeout retires TIMEOUT, raises 0x0B04 and halts the chamber. -/
  | kernelTimeout (ch : Fin 32) (seq : W32)
  /-- OPS_LBASE_WRITE (R215): A write to OPS_LBASE is taken only in IDLE and otherwise is ignored with 0x0B08. -/
  | opsLbaseWrite (fn : Fn) (ch : Fin 32) (list : Fin 8) (hi : Bool) (v : W32)
  /-- OPS_LSIZE_WRITE (R215): A write to OPS_LSIZE is taken only in IDLE with a legal value and otherwise is ignored with 0x0B08. -/
  | opsLsizeWrite (fn : Fn) (ch : Fin 32) (list : Fin 8) (v : W32)
  /-- OPS_STR_BASE_WRITE (R235): A write to OPS_STR_BASE is taken only in IDLE within the gallery window and otherwise is ignored with 0x0B08. -/
  | opsStrBaseWrite (fn : Fn) (ch : Fin 32) (hi : Bool) (v : W32)
  /-- OPS_STR_COUNT_WRITE (R235): A write to OPS_STR_COUNT is taken only in IDLE with a power of two within the module total and otherwise is ignored with 0x0B08. -/
  | opsStrCountWrite (fn : Fn) (ch : Fin 32) (v : W32)
  /-- SOURCE_BURST_ARRIVAL (R236): Source bytes of a stream arrive; complete 64 B units are written, OFFSET and LAST_PROGRESS advance, and the stream returns to ACTIVE. -/
  | sourceBurstArrival (ch : Fin 32) (stream : BitVec 18) (n : BitVec 9) (data : Bytes)
  /-- STREAM_STALL (R236): With requests outstanding and no source byte for 1 µs, the stream shows STALLED. -/
  | streamStall (ch : Fin 32) (stream : BitVec 18)
  /-- STALL_TIMEOUT (R237): A stream without progress for STALL_TMO becomes TIMED_OUT, raises 0x0B05, retires its TRANSFER with TIMEOUT and halts the chamber. -/
  | stallTimeout (ch : Fin 32) (stream : BitVec 18)
  /-- BANK_AGE_FORCE (R247): A bank head reaching AGE µs is forced onto the free engine and sets FORCED. -/
  | bankAgeForce (ch : Fin 32) (list : Fin 8)
  /-- PIP_BANK_CFG_WRITE (R258): A write to PIP_BANK_CFG is taken only in IDLE within range and otherwise is ignored with 0x0C04. -/
  | pipBankCfgWrite (fn : Fn) (ch : Fin 32) (v : W32)
  /-- PIP_BANK_AGE_WRITE (R258): A write to PIP_BANK_AGE is taken only in IDLE and otherwise is ignored with 0x0C04. -/
  | pipBankAgeWrite (fn : Fn) (ch : Fin 32) (v : W32)
  /-- PIP_STAGE_WRITE (R258): A write to PIP_STAGE_k is taken only in IDLE for an existing alcove and otherwise is ignored with 0x0C04. -/
  | pipStageWrite (fn : Fn) (ch : Fin 32) (k : Fin 8) (v : W32)
  /-- UPDATE_NORM_TIMEOUT (R265): An UPDATE whose norm wait still fails WAIT_TMO after its other conditions held retires TIMEOUT, raises 0x0D05 and halts the chamber. -/
  | updateNormTimeout (ch : Fin 32) (seq : W32)
  /-- ASH_TIMEOUT (R272): An operation waiting for ash ring space beyond WAIT_TMO retires TIMEOUT, raises 0x0D06 and halts the chamber. -/
  | ashTimeout (ch : Fin 32) (seq : W32)
  /-- ASH_CFG_WRITE (R279): A write to ASH_CFG is taken only in IDLE with a legal SPACE and otherwise is ignored with 0x0D08. -/
  | ashCfgWrite (fn : Fn) (ch : Fin 32) (v : W32)
  /-- ASH_RING_WRITE (R279): A write to ASH_RING or ASH_RING_SIZE is taken only in IDLE with a legal LOG2 and otherwise is ignored with 0x0D08. -/
  | ashRingWrite (fn : Fn) (ch : Fin 32) (reg : Fin 3) (v : W32)
  /-- CHM_JOB_WRITE (R360): A write that changes CHM_JOB writes energy record 0x1004 and clears PWR_ENERGY. -/
  | chmJobWrite (fn : Fn) (ch : Fin 32) (v : W32)
  /-- DATA_FLIT (R286): A received DATA flit is checked and accepted in order, or is discarded with NAK; its ACK, NAK and credits are processed and its packet bytes are handed on. -/
  | dataFlit (port : Fin 24) (flit : Bytes) (errs : List CwErr)
  /-- CODEWORD_ERROR_BURST (R283): More than 4 uncorrectable codewords within 1 µs send the port to RECOVERY. -/
  | codewordErrorBurst (port : Fin 24)
  /-- REPLAY_LIMIT (R286): A flit resent 16 times without its ACK passing sends the port to RECOVERY. -/
  | replayLimit (port : Fin 24)
  /-- LANE_LOCK_LOSS (R301): Loss of block lock on any lane sends the port to RECOVERY. -/
  | laneLockLoss (port : Fin 24)
  /-- TRAIN_FLIT (R303): TRAIN flits from the peer take the port to TRAINING. -/
  | trainFlit (port : Fin 24) (flit : Bytes) (errs : List CwErr)
  /-- TRAINING_COMPLETE (R304): Training ends; LINK_IDs are compared, and the port resumes by replay or discards its held state with 0x0E06, then returns to ACTIVE. -/
  | trainingComplete (port : Fin 24) (peer : TrainResult)
  /-- TRAINING_FAILED (R302): A failed fast training retries or falls back to full training; a failed full training enters DOWN with 0x0E04. -/
  | trainingFailed (port : Fin 24)
  /-- DOWN_RETRY (R302): Every 1 s a DOWN port that is enabled retries a full training. -/
  | downRetry (port : Fin 24)
  /-- RETRAIN (R303): LNK_PCTL.RETRAIN retrains one port alone, with a full training when FULL = 1. -/
  | retrain (port : Fin 24) (full : Bool)
  /-- CLR (R305): LNK_PCTL.CLR clears the port's counters. -/
  | clr (port : Fin 24)
  /-- TIME_FLIT_SEND (R298): Every 10 µs of module time, each ACTIVE port sends a TIME flit. -/
  | timeFlitSend (port : Fin 24)
  /-- PWR_GRANT_WRITE (R359): A driver write of PWR_GRANT sets the cap at once when COORD_EN = 0, and otherwise is ignored with 0x1009. -/
  | pwrGrantWrite (v : W32)
  /-- CORRECTION_REPORT (R312): At the end of a 1 ms hold-back window, one 0x0F01 carries the held-back corrections. -/
  | correctionReport (scope : Scope)
  /-- SWP_START (R316): SWP_CMD.OP = START starts a sweep after its checks, or is refused. -/
  | swpStart (fn : Fn) (scope : Scope)
  /-- SWP_ABORT (R319): SWP_CMD.OP = ABORT ends the sweep as ABORTED within 10 µs. -/
  | swpAbort (fn : Fn) (scope : Scope)
  /-- SWEEP_WORD_CHECK (R317): The sweep checks its next code word, corrects or counts it, and advances POS. -/
  | sweepWordCheck (scope : Scope)
  /-- RAW_READ (R323): ECC_RAW_CMD.OP = READ copies a stored gallery word's data, check and valid bit without correction. -/
  | rawRead (fn : Fn) (ch : Fin 32)
  /-- RAW_WRITE (R323): ECC_RAW_CMD.OP = WRITE stores DATA and CHK as given and sets the valid bit. -/
  | rawWrite (fn : Fn) (ch : Fin 32)
  /-- RAW_COMMAND_COMPLETE (R323): A raw command ends within 1 µs, and BUSY clears. -/
  | rawCommandComplete (ch : Fin 32)
  /-- CBIST_START (R328): ECC_CBIST_CMD START begins the selected built-in tests of a cluster outside every chamber, or is refused. -/
  | cbistStart (cluster : BitVec 6) (tests : BitVec 4) (update : Bool)
  /-- CBIST_COMPLETE (R328): A cluster test ends, reports FAILMASK and FIRST_CORE, and raises 0x0F06 on failure. -/
  | cbistComplete (failmask first : BitVec 4) (bonds : List BondFail)
  /-- PU2 (R338): Phase PU2 completes: island clocks started, ageing monitors read, LPDDR5X trained and repair map applied. -/
  | pu2 (margins : List W8)
  /-- PU3 (R338): Phase PU3 completes the gallery self-test, bond test and checker test. -/
  | pu3 (test : SelfTest)
  /-- POWER_TRIP (R341): An input, rail, regulator or power excess past its time limit trips the module with 0x100B and powers down to Standby. -/
  | powerTrip (cause : TripCause)
  /-- CURRENT_WINDOW (R343): Every 2 µs window of VDD_C or VDD_G current cuts or raises the clusters' current term and may raise 0x1007. -/
  | currentWindow (die : Fin 2) (samples : List RailSample)
  /-- BUDGET_PERIOD (R347): Every 10 µs the power manager recomputes cluster budgets and adjusts each cluster's budget term. -/
  | budgetPeriod (shared : W32) (power : List Nat)
  /-- FREQUENCY_STEP (R348): A cluster held at level 1 for 100 µs steps down, or one at MAX for 1 ms steps up, by 25 MHz. -/
  | frequencyStep (cluster : BitVec 6)
  /-- FREQUENCY_CHANGE_COMPLETE (R350): A frequency change whose rail has reached its setpoint switches the divider and completes. -/
  | frequencyChangeComplete (cluster : BitVec 6)
  /-- DEFERRED_CHANGE_START (R351): 10 µs after the droop detector releases, a deferred frequency change starts. -/
  | deferredChangeStart (cluster : BitVec 6)
  /-- DROOP_ASSERT (R349): A cluster droop detector asserts, sets the level to 0 and stretches the clock. -/
  | droopAssert (cluster : BitVec 6)
  /-- DROOP_RELEASE (R349): After 100 ns above threshold plus 10 mV, the detector releases and the level and clock return. -/
  | droopRelease (cluster : BitVec 6)
  /-- ENERGY_WINDOW (R360): Every 100 µs, island and input energy are measured and credited to chambers or PWR_UNATTR. -/
  | energyWindow (input peak : Nat) (cluster : List Nat)
  /-- HK_CONVERSION (R361): A housekeeping channel completes its conversion, updates HK_CH and answers a pending trigger. -/
  | hkConversion (n : BitVec 8) (v : W16)
  /-- HK_TRIG (R362): A write to HK_TRIG sets a channel's pending bit, or is coalesced or ignored. -/
  | hkTrig (v : W32)
  /-- VF_FLR (R380): A VF function-level reset clears its chamber's event-ring block and resets the chamber. -/
  | vfFlr (k : Fin 32)
  /-- WARM_RESET (R383): Vendor command WARM_RESET causes a warm reset in Ready or Active and completes with code 4 otherwise. -/
  | warmReset (sess : Sess)
  /-- HOST_COMPLETION (R375): A PCIe completion for a host read arrives; a failed completion raises 0x1103 and halts the chamber. -/
  | hostCompletion (tag : Nat) (ok : Bool) (data : Bytes)
  /-- DMA_READ_TIMEOUT (R375): A host read without completion for MOD_DMA_TMO ms is issued again. -/
  | dmaReadTimeout (tag : Nat)
  /-- HOLDOFF_EXPIRY (R379): EVR_HOLDOFF µs after a message on a vector, one message covers the records written meanwhile. -/
  | holdoffExpiry (fn : Fn) (vector : BitVec 11)
  /-- EVR_CFG_WRITE (R378): A write to the event-ring block enables the ring and zeroes WR and RD, disables it, or is ignored with 0x1101 while enabled. -/
  | evrCfgWrite (fn : Fn) (scope : Scope) (off : BitVec 6) (v : W32)
  /-- GET_INFO (R381): Mailbox command GET_INFO returns the identity registers. -/
  | getInfo (len : W16)
  /-- GET_FRU (R381): Mailbox command GET_FRU returns the FRU record table. -/
  | getFru (len : W16)
  /-- MBX_GET_MEASUREMENTS (R381): Mailbox command GET_MEASUREMENTS returns the seven digests. -/
  | mbxGetMeasurements (len : W16)
  /-- READ_REG (R383): Vendor command READ_REG reads one global-block register. -/
  | readReg (off : W32)
  /-- SET_TLIM (R367): Vendor command SET_TLIM writes the thermal limits to flowstone word 384. -/
  | setTlim (sess : Sess) (v : W32)
  /-- CLEAR_TRIP (R383): Vendor command CLEAR_TRIP clears PWR_STAT.TRIP and LAST_TRIP. -/
  | clearTrip (sess : Sess)
  /-- FIRMWARE_UPDATE (R385): PLDM Firmware Update writes the copy of management firmware not in use, or the bellows microcode. -/
  | firmwareUpdate (microcode : Bool) (version : W16) (security : W8) (verifies : Bool)
  /-- BYPASS (R384): JTAG instruction BYPASS, or an instruction code of no other instruction, which acts as BYPASS. -/
  | bypass (die : Fin 2) (code : W8)
  /-- IDCODE (R384): JTAG instruction IDCODE returns 0x0090_1C2B with REV_B in bits [31:28]. -/
  | idcode (die : Fin 2)
  /-- SAMPLE_PRELOAD (R384): JTAG instruction SAMPLE/PRELOAD. -/
  | samplePreload (die : Fin 2)
  /-- EXTEST (R384): JTAG instruction EXTEST, which acts as BYPASS in Ready and Active. -/
  | extest (die : Fin 2)
  /-- IDLE_FLIT (R285): A received IDLE flit delivers its cumulative ACK, NAK and CRED, freeing replay-buffer flits, starting a go-back-N replay or returning credits. -/
  | idleFlit (port : Fin 24) (flit : Bytes) (errs : List CwErr)
  /-- PCIE_LINK_UP (R371): The PCIe link completes training at some speed and width, MOD_PCIE is set, and event 0x1104 is raised when the result is below 32.0 GT/s x16. -/
  | pcieLinkUp (speed : BitVec 3) (width : BitVec 5)
  /-- CONFIGURATION_REQUEST (R391): A PCIe configuration request is answered with Configuration Request Retry Status before Ready and during a warm reset, and otherwise reads or writes configuration state such as VF Enable, Bus Master Enable and the Resizable BAR size. -/
  | configurationRequest (fn : Fn) (write : Bool) (reg : ConfigReg) (v : W32)
  /-- TIME_INPUT_LOST (R30): No time message for 100 ms clears LOCKED, sets LOST, raises 0x0401, and the counter runs free. -/
  | timeInputLost
  /-- RELOAD (R40): STR_CMD.OP = RELOAD, accepted only with every chamber IDLE or HALTED, supersedes proposals, takes chambers to UNDEFINED, then loads, checks and creates chambers from the selected slot. -/
  | reload
  /-- PROGRAM_COMPLETE (R41): Programming ends within 4 s; the module clears BUSY, sets PROG to 15 or to the failed check and raises 0x0204. -/
  | programComplete
  /-- FLOWSTONE_BUSY_END (R57): About 50 µs after an accepted write, FLW_STAT.BUSY clears. -/
  | flowstoneBusyEnd
  /-- GET_VERSION (R63): SPDM GET_VERSION request answered over MCTP. -/
  | getVersion
  /-- GET_CAPABILITIES (R63): SPDM GET_CAPABILITIES request answered. -/
  | getCapabilities
  /-- READ (R196): An arriving READ packet is checked at the owner and answered with READ_DATA. -/
  | read
  /-- STORE (R198): An arriving STORE packet is performed at the owner and acknowledged. -/
  | store
  /-- ATOMIC (R198): An arriving ATOMIC packet is performed at the owner and acknowledged with the old value. -/
  | atomic
  /-- SIGNAL_PACKET (R230): An arriving SIGNAL message is checked, changes its counter and is acknowledged OK, REFUSED, NOT_READY or FAULT. -/
  | signalPacket
  /-- REDUCE_PACKET (R204): An arriving reduce packet is checked at the owner and combined code word by code word, then acknowledged. -/
  | reducePacket
  /-- READ_DATA (R196): A returning line completes waiting remote loads and is installed as a READ line unless R197 or NO_ALLOC forbid it. -/
  | readData
  /-- ACK (R204): An arriving acknowledgement frees a DRAINING line or completes a store, atomic or SIGNAL, or raises the sender-side fault of Table ECH-6. -/
  | ack
  /-- SLACK_SEND (R356): At every multiple of 100 µs, a module with a remote coordinator sends a SLACK packet. -/
  | slackSend
  /-- SLACK (R300): An arriving SLACK packet is taken by the coordinator, or is dropped with 0x0E07 elsewhere. -/
  | slack
  /-- GRANT (R359): An arriving GRANT from the coordinator with a newer GRANT_SEQ is accepted and scheduled; others are discarded or dropped with 0x0E07. -/
  | grant
  /-- COORDINATOR_PERIOD (R358): Every PERIOD ms the coordinator computes caps and sends the GRANTs that differ by DEADBAND or more. -/
  | coordinatorPeriod
  /-- GRANT_APPLY (R359): At a grant's apply time, its cap, limited to CAP_MAX, takes effect. -/
  | grantApply
  /-- SRAM_CORRECTION_REPORT (R314): At the end of a 1 ms window, one 0x0F0A reports the held-back base-die SRAM corrections. -/
  | sramCorrectionReport
  /-- SRAM_UNCORRECTABLE (R314): An uncorrectable base-die SRAM error raises 0x0F09 as a module-fatal fault. -/
  | sramUncorrectable
  /-- CBIST_ABORT (R329): ECC_CBIST_CMD ABORT ends a running cluster test within 10 µs. -/
  | cbistAbort
  /-- EN_RISE (R337): A debounced rising edge on EN is an ON request. -/
  | enRise
  /-- EN_FALL (R337): A debounced falling edge on EN is an OFF request. -/
  | enFall
  /-- PLDM_ON (R382): The PLDM power-state effecter set to ON is an ON request. -/
  | pldmOn
  /-- PLDM_STANDBY (R382): The PLDM power-state effecter set to STANDBY is a STANDBY request. -/
  | pldmStandby
  /-- PLDM_OFF (R382): The PLDM power-state effecter set to OFF is an OFF request. -/
  | pldmOff
  /-- PWR_CMD_STANDBY (R337): PWR_CMD.OP = STANDBY from the PF is a STANDBY request. -/
  | pwrCmdStandby
  /-- PWR_CMD_OFF (R337): PWR_CMD.OP = OFF from the PF is an OFF request. -/
  | pwrCmdOff
  /-- INPUT_LOSS (R337): The 54 V input falling below 44 V takes the module to Off at once. -/
  | inputLoss
  /-- START_UP (R387): After the input has held at 47 V or more for 10 ms, start-up steps 1 to 3 run from Off toward Standby. -/
  | startUp
  /-- STANDBY_REACHED (R391): Start-up step 3 ends in Standby, and a high EN counts as an ON request. -/
  | standbyReached
  /-- PU1 (R338): Power-up phase PU1 completes with the rails up at safe point U1. -/
  | pu1
  /-- PU4 (R338): Phase PU4 completes link training. -/
  | pu4
  /-- PU5 (R338): Phase PU5 completes the load and check of the structure image. -/
  | pu5
  /-- PU6 (R338): Phase PU6 creates the chambers, raises the islands to their limits, reaches Ready and raises 0x1001. -/
  | pu6
  /-- PD1 (R338): Phase PD1 completes after halting every chamber with 0x1003 and finishing flowstone writes. -/
  | pd1
  /-- PD2 (R338): Phase PD2 completes with every port DISABLED. -/
  | pd2
  /-- PD3 (R338): Phase PD3 completes: chambers UNDEFINED with keys erased, islands stopped and refresh stopped. -/
  | pd3
  /-- PD4 (R338): Phase PD4 completes with the rails down in Standby. -/
  | pd4
  /-- OFF_REACHED (R340): The standby rail falls below power-good, and the 500 ms Off dwell begins. -/
  | offReached
  /-- DWELL_END (R340): The Off dwell ends, and a latched request is acted on. -/
  | dwellEnd
  /-- ROT_LOST (R341): No answer from the root of trust for 10 ms, or a reported failure, trips the module with 0x100C. -/
  | rotLost
  /-- TRIP_HOLDOFF_END (R341): 5 s after Standby is reached following a trip, ON requests are accepted again. -/
  | tripHoldoffEnd
  /-- HK_ROUND_END (R363): At the end of a round, sensors are checked for failure, gallery bands and thermal terms are updated, and trips are judged. -/
  | hkRoundEnd
  /-- PERST_ASSERT (R389): PERST_N asserted in Ready or Active causes a warm reset. -/
  | perstAssert
  /-- PERST_DEASSERT (R391): PERST_N deasserted lets PCIe training start at safe point U1. -/
  | perstDeassert
  /-- HOT_RESET (R389): A PCIe hot reset or link down in Ready or Active causes a warm reset. -/
  | hotReset
  /-- PF_FLR (R389): A PF function-level reset causes a warm reset and clears VF Enable. -/
  | pfFlr
  /-- MOD_RST_WARM (R389): MOD_RST.WARM = 1 causes a warm reset. -/
  | modRstWarm
  /-- WARM_RESET_COMPLETE (R390): The warm reset finishes halting, undefining, reloading and creating chambers, and writes record 0x1102. -/
  | warmResetComplete
  /-- MAILBOX_COMPLETE (R381): A mailbox command completes, sets DONE and RESULT and signals PF vector 1. -/
  | mailboxComplete
  /-- ARM (R399): LNT_CTL.ARM arms a time snapshot at LNT_TIME, or is refused with 0x1201. -/
  | arm
  /-- LNT_CANCEL (R399): LNT_CTL.CANCEL in ARMED returns the snapshot to IDLE and sets CANCELLED. -/
  | lntCancel
  /-- LANTERN_LATCH (R396): At target time T every bank latches its time shadow; the snapshot reaches DONE and writes record 0x1202. -/
  | lanternLatch
  deriving DecidableEq, Repr

end Sys2Proof
end

