-- ==== Sys2Proof/Decode.lean ====
section
/-! DEFINITION. Decode.lean: the command that a word spells. No row of the operation table gives bits:
the commands reach the block as PCIe requests, link flits, management messages, pin events and
happenings inside it, so no word spells one. -/
namespace Sys2Proof

/-- The command of a table word: none, because no row of the operation table gives bits. -/
def decodeTableWord (_nbits _w : Nat) : Option Instr := none

end Sys2Proof
end

