-- ==== Sys2Proof/Config.lean ====
section
/-! DEFINITION. Config.lean: what the manual fixes per part or leaves open. Every constant here is
opaque: nothing in Lean can evaluate it, so a statement holds for every value it may have. Each is
named in notes/assumptions. -/
namespace Sys2Proof.Config
open Sys2Proof

/-- The k-th 256-bit draw of the root of trust's CTR_DRBG since the part was made (R52 nonces, R58
keys, R301 LINK_IDs). Free. -/
opaque drbg : Nat → BitVec 256

/-- Free value number k, for a result that the manual leaves open; `State.free` counts them. -/
opaque freeWord : Nat → BitVec 64

/-- What the cells of bulk byte p hold at power-on (R178: whatever the cells hold). Free. -/
opaque bulkCell : Nat → BitVec 8

/-- The contribution of data bit i to the 16-bit check of a gallery word. R310: the mapping from data to check
bits is not defined; Machine/GalCode.lean holds it to the power that R308 defines. Free. -/
opaque galColumn : Nat → BitVec 16

/-- Xinorel's signing keys 0 to 3 in the base-die ROM (R37 check 3): x then y, 96 bytes. Free. -/
opaque romKey : Nat → List (BitVec 8)

/-- Digest of the factory image's ROM encoding (R39; published per base-die revision). Free. -/
opaque factoryDigest : List (BitVec 8)

/-- Measurement digests 1 to 3 of Table STR-16 for a firmware or microcode version. Free. -/
opaque codeDigest : Nat → Nat → List (BitVec 8)

/-- The body of an SPDM response: message code, request number. R63 names the messages; SPDM 1.2,
the certificates and the session keys fix the bytes. Free. -/
opaque spdmBody : Nat → Nat → List (BitVec 8)

/-- The FRU record table in flash (R381, R385). Free. -/
opaque fruTable : List (BitVec 8)

/-- The V/F table in base-die ROM, in mV by frequency code (R354). Free. -/
opaque romVoltage : Nat → Nat

/-- Whether a CPY with this instruction word moves its code word to core space rather than from it. R151
says that CPY moves a code word between core space and the gallery or bulk, and no field of Table THR-7
says which way. Free. -/
opaque cpyToCore : BitVec 64 → Bool

/-- Whether the I form of COPY (Table THR-8) gives D the immediate rather than A: R163 says that COPY copies
A to D, and R162 that the I form replaces B. Free. -/
opaque copyImmediate : Bool

/-- Room in a die's response queue beyond its first response (R288, which gives no size). Free. -/
opaque responseRoom : Nat

/-- The payload of a TRAIN flit (R301 names what it exchanges and not its bytes). Free. -/
opaque trainPayload : List (BitVec 8)

end Sys2Proof.Config
end

