-- ==== Sys2Proof/Machine/Bits.lean ====
section
/-! DEFINITION. Bits.lean: bit fields, little-endian byte strings, sparse tables, and the two digests
that the manual uses, CRC-32C (R34) and SHA-384. -/
namespace Sys2Proof.Machine
open Sys2Proof

/-- Field [hi:lo] of a register (R5), as a number. -/
def fld (w : W32) (hi lo : Nat) : Nat := (w.toNat >>> lo) % 2 ^ (hi + 1 - lo)

/-- A register with field [hi:lo] set to `v` (R5). -/
def setFld (w : W32) (hi lo v : Nat) : W32 :=
  let mask : W32 := BitVec.ofNat 32 ((2 ^ (hi + 1 - lo) - 1) <<< lo)
  (w &&& ~~~mask) ||| (BitVec.ofNat 32 (v <<< lo) &&& mask)

/-- Bit `i` of a register. -/
def bit (w : W32) (i : Nat) : Bool := w.getLsbD i

/-- A register with bit `i` set to `b`. -/
def setBit (w : W32) (i : Nat) (b : Bool) : W32 := setFld w i i (cond b 1 0)

/-- A saturating 32-bit count plus `n`. -/
def satAdd (w : W32) (n : Nat) : W32 := BitVec.ofNat 32 (min (w.toNat + n) 0xFFFFFFFF)

/-- The number that a little-endian byte string holds (R5). -/
def leNat : Bytes → Nat
  | [] => 0
  | b :: bs => b.toNat + 256 * leNat bs

/-- The `n` low bytes of a number, little-endian (R5). -/
def natLe : Nat → Nat → Bytes
  | 0, _ => []
  | n + 1, v => BitVec.ofNat 8 v :: natLe n (v / 256)

/-- The number that a big-endian byte string holds (R34: the signature's r and s). -/
def beNat (bs : Bytes) : Nat := bs.foldl (fun a b => a * 256 + b.toNat) 0

/-- `n` bytes from offset `off` of a byte string, zeros beyond its end. -/
def slice (bs : Bytes) (off n : Nat) : Bytes :=
  let t := (bs.drop off).take n
  t ++ List.replicate (n - t.length) 0

/-- The `n`-byte little-endian number at offset `off` of a byte string. -/
def at_ (bs : Bytes) (off n : Nat) : Nat := leNat (slice bs off n)

/-- A byte string with `bs` put in at offset `off`. -/
def splice (a : Bytes) (off : Nat) (bs : Bytes) : Bytes :=
  a.take off ++ bs ++ a.drop (off + bs.length)

/-- Whether the bytes from `off` to `off + n - 1` are 0 (reserved fields). -/
def zeroAt (bs : Bytes) (off n : Nat) : Bool := (slice bs off n).all (· == 0)

/-- Bitwise exclusive or of two byte strings (R271). -/
def xorBytes (a b : Bytes) : Bytes := List.zipWith (· ^^^ ·) a b

namespace Tab
variable {β : Type}

/-- What key `k` reads as; `d` where it is not listed. -/
def get (d : β) (k : Nat) : Tab β → β
  | [] => d
  | (j, w) :: t => if j = k then w else get d k t

/-- Puts an entry in before the first larger key. -/
def insert (k : Nat) (v : β) : Tab β → Tab β
  | [] => [(k, v)]
  | (j, w) :: t => if k < j then (k, v) :: (j, w) :: t else (j, w) :: insert k v t

/-- Removes the entries of key `k`. -/
def erase (k : Nat) : Tab β → Tab β
  | [] => []
  | (j, w) :: t => if j = k then erase k t else (j, w) :: erase k t

/-- Key `k` with value `v`, keeping the canonical form: a default is not listed. -/
def set [DecidableEq β] (d : β) (k : Nat) (v : β) (t : Tab β) : Tab β :=
  if v = d then erase k t else insert k v (erase k t)

/-- Drops every entry whose key satisfies `p`. -/
def drop (p : Nat → Bool) (t : Tab β) : Tab β := t.filter (fun e => !p e.1)

/-- The canonical form: keys strictly rising and no entry equal to the default. -/
def wf [DecidableEq β] (d : β) : Tab β → Bool
  | [] => true
  | [(_, v)] => decide (v ≠ d)
  | (j, v) :: (k, w) :: t => decide (v ≠ d) && decide (j < k) && wf d ((k, w) :: t)

end Tab

/-- Reads `n` bytes from address `a`; what an unlisted address holds is 0. -/
def memRead (m : Tab W8) (a : Nat) : Nat → Bytes
  | 0 => []
  | n + 1 => Tab.get 0 a m :: memRead m (a + 1) n

/-- Writes a byte string at address `a`. -/
def memWrite (m : Tab W8) (a : Nat) : Bytes → Tab W8
  | [] => m
  | b :: bs => memWrite (Tab.set 0 a b m) (a + 1) bs

/-- Sets keys `a` to `a + n - 1` of a table to `v`. -/
def setRange {β : Type} [DecidableEq β] (d v : β) (a : Nat) : Nat → Tab β → Tab β
  | 0, t => t
  | n + 1, t => setRange d v (a + 1) n (Tab.set d a v t)

/-- One step of CRC-32C per bit, reflected form of polynomial 0x1EDC_6F41 (R34). -/
def crcBits : Nat → W32 → W32
  | 0, c => c
  | n + 1, c => crcBits n (if c.getLsbD 0 then (c >>> 1) ^^^ 0x82F63B78#32 else c >>> 1)

/-- CRC-32C with initial value 0xFFFF_FFFF and final complement (R34). -/
def crc32c (bs : Bytes) : W32 :=
  ~~~(bs.foldl (fun c b => crcBits 8 (c ^^^ b.zeroExtend 32)) 0xFFFFFFFF#32)

/-- The largest `r` below 2^`bits` with r^k at most `n`, found bit by bit above `r`. -/
def rootFrom (k n : Nat) : (bits : Nat) → (r : Nat) → Nat
  | 0, r => r
  | b + 1, r => rootFrom k n b (if (r + 2 ^ b) ^ k ≤ n then r + 2 ^ b else r)

/-- The first 64 bits of the fractional part of the k-th root of `p` (FIPS 180-4). -/
def rootFrac (k p : Nat) : W64 := BitVec.ofNat 64 (rootFrom k (p * 2 ^ (64 * k)) 68 0)

/-- The primes below 410, 80 of them, rising. -/
def shaPrimes : List Nat :=
  (List.range 410).filter (fun n => decide (2 ≤ n) && (List.range 21).all (fun d => decide (d < 2) || n % d != 0 || n == d))

/-- Round constants of SHA-384 (FIPS 180-4): from the cube roots of the first 80 primes. -/
def shaRounds : List W64 := shaPrimes.map (rootFrac 3)

/-- Initial hash value of SHA-384 (FIPS 180-4): from the square roots of the 9th to 16th primes. -/
def shaInit : List W64 := ((shaPrimes.drop 8).take 8).map (rootFrac 2)

/-- Big-endian 64-bit word. -/
def beWord (bs : Bytes) : W64 := BitVec.ofNat 64 (beNat bs)

/-- The exclusive or of a word's rotations right. -/
def xorRot (w : W64) (by_ : List Nat) : W64 := by_.foldl (fun a r => a ^^^ w.rotateRight r) 0

/-- The message schedule, newest word first; 64 more words are added to the 16 of the block. -/
def shaSchedule : Nat → List W64 → List W64
  | 0, w => w
  | n + 1, w =>
    let a := w.getD 14 0
    let b := w.getD 1 0
    let s0 := xorRot a [1, 8] ^^^ (a >>> 7)
    let s1 := xorRot b [19, 61] ^^^ (b >>> 6)
    shaSchedule n ((w.getD 15 0 + s0 + w.getD 6 0 + s1) :: w)

/-- One compression of SHA-384 over a 128-byte block. -/
def shaBlock (h : List W64) (blk : Bytes) : List W64 :=
  let first := (List.range 16).map (fun i => beWord (slice blk (8 * i) 8))
  let ws := (shaSchedule 64 first.reverse).reverse
  let r := (List.zip ws shaRounds).foldl (fun (s : List W64) (wk : W64 × W64) =>
    let a := s.getD 0 0; let e := s.getD 4 0
    let s1 := xorRot e [14, 18, 41]
    let ch := (e &&& s.getD 5 0) ^^^ (~~~e &&& s.getD 6 0)
    let t1 := s.getD 7 0 + s1 + ch + wk.2 + wk.1
    let s0 := xorRot a [28, 34, 39]
    let maj := (a &&& s.getD 1 0) ^^^ (a &&& s.getD 2 0) ^^^ (s.getD 1 0 &&& s.getD 2 0)
    [t1 + s0 + maj, a, s.getD 1 0, s.getD 2 0, s.getD 3 0 + t1, e, s.getD 5 0, s.getD 6 0]) h
  List.zipWith (· + ·) h r

/-- Compresses `n` blocks. -/
def shaBlocks : Nat → List W64 → Bytes → List W64
  | 0, h, _ => h
  | n + 1, h, bs => shaBlocks n (shaBlock h (bs.take 128)) (bs.drop 128)

/-- SHA-384 (FIPS 180-4), 48 bytes (R34, R52, R64). -/
def sha384 (bs : Bytes) : Bytes :=
  let pad := (239 - bs.length % 128) % 128
  let msg := bs ++ 0x80 :: List.replicate (pad + 8) 0 ++ (natLe 8 (8 * bs.length)).reverse
  let h := shaBlocks (msg.length / 128) shaInit msg
  ((h.take 6).map (fun w => (natLe 8 w.toNat).reverse)).flatten

end Sys2Proof.Machine
end

