-- ==== Sys2Proof/Machine/State.lean ====
section
/-! DEFINITION. State.lean: everything the manual gives the module as state, as plain data, the reasons
a command can stop, and the state after reset. Registers are held by their offset in a register file
(Machine/RegTable.lean names every one and gives its access type); what a register only shows is held
once, where it belongs, and Machine/Access.lean computes the register from it. -/
namespace Sys2Proof.Machine
open Sys2Proof

/-- Addressed bytes in canonical form (addresses rising; no byte equal to what an unlisted one reads as). -/
abbrev Mem := List Host.Cell

/-- Why a command stops the model with a fault. -/
inductive Fault where
  /-- Raised by DATA_FLIT, IDLE_FLIT, TIME_FLIT and TRAIN_FLIT when the operand does not have the 256 bytes of a flit.
  No link can deliver it. Safe. -/
  | badLength
  deriving DecidableEq, Repr

/-- Why a command is refused by the model. -/
inductive Refusal where
  /-- The command has no meaning yet; raised by a dispatch arm only. Safe. -/
  | notModelled (mnemonic : String)
  deriving DecidableEq, Repr

/-- Table STR-7. -/
inductive ChState where
  | undefined | clearing | idle | running | halted | rotating
  deriving DecidableEq, Repr

/-- Table STR-11, APV_STAT.STATE. -/
inductive ApvState where
  | empty | collecting | proposed | committing
  deriving DecidableEq, Repr

/-- Table OPS-3, with `held` for a link of an open chain that has finished its steps (R249). -/
inductive OpState where
  | fetched | staged | executing | held | retiring
  deriving DecidableEq, Repr

/-- Table OPS-4. -/
inductive Status where
  | ok | poison | fault | refused | cancelled | timeout
  deriving DecidableEq, Repr

/-- Table ECH-2 without INVALID: an invalid way is not listed. -/
inductive LineState where
  | read | accum | draining
  deriving DecidableEq, Repr

/-- Table LNK-10. -/
inductive PortState where
  | disabled | training | active | recovery | down
  deriving DecidableEq, Repr

/-- What a port's return to ACTIVE follows (R302). -/
inductive TrainCause where
  | startUp | recovery | retrain | down | peer
  deriving DecidableEq, Repr

/-- The phases of R338; `pu k` and `pd k` run phase PUk and PDk. `offDwell` is Off within its 500 ms. -/
inductive Phase where
  | off | offDwell | startUp | standby | toOff | pu (k : Nat) | ready | pd (k : Nat)
  deriving DecidableEq, Repr

/-- The target of a power request (R337). -/
inductive Target where
  | on | standby | off
  deriving DecidableEq, Repr

/-- A frequency change (R350, R351): none, deferred until a time (none while the detector is asserted),
or running. -/
inductive Change where
  | none | deferred (start : Option W64) | running
  deriving DecidableEq, Repr

/-- Table OBS-7 and Table ECC-10 style engine states. -/
inductive LntState where
  | idle | armed | latching | done
  deriving DecidableEq, Repr

/-- The kinds of request that wait for an answer from an owner (R210). -/
inductive ReqKind where
  | fill | store | atomic | reduce | signal | streamRead | streamStore | ashStore
  deriving DecidableEq, Repr

/-- Why a live thread is not runnable (R141). `mem` holds the destination, and the result once it is
there (R141, MEMORY_RESULT_RETURN); `ack` waits in a FENCE, of system scope or device scope (R153); `hold` waits
before an access (R99, R153). -/
inductive Wait where
  | run
  | mem (dest : Nat) (pair : Bool) (value : Option W64)
  | bar
  | sleep (until_ : W64)
  | ack (system : Bool)
  | hold
  deriving DecidableEq, Repr

/-- Where bytes of a link lie in a receive buffer (R287): the port, its lane, and the number of the accepted flit. -/
structure Slot where
  port : Nat
  lane : Nat
  flit : Nat
  deriving DecidableEq, Repr

/-- One packet of Table LNK-5: header fields and the body after the 8-byte header. `die` is the die that injects
it or on which it arrived (Table OBS-6), `held` the receive-buffer bytes that it still occupies (R287). -/
structure Packet where
  ptype : Nat
  hops : Nat
  dstMod : Nat
  dstCh : Nat
  srcMod : Nat
  srcCh : Nat
  body : Bytes
  die : Nat := 0
  held : List (Slot × Nat) := []
  deriving DecidableEq, Repr

/-- The change buffer and proposal of one scope (R51, R52, Table STR-11). -/
structure Apv where
  state : ApvState := .empty
  ownerIn : Bool := false
  operatorIn : Bool := false
  overflow : Bool := false
  ignored : Bool := false
  buf : List (W32 × W32) := []
  result : Nat := 0
  id : W32 := 0
  nonce : BitVec 128 := 0
  hash : Bytes := []
  deadline : W64 := 0
  needOwner : Bool := false
  record : Tab W32 := []
  deriving DecidableEq, Repr

/-- One operation in flight (R220 to R224); `startedOn` lists the cores on which a KERNEL has started (R135). -/
structure Op where
  seq : W32
  list : Nat
  entry : Nat
  desc : Bytes
  state : OpState := .fetched
  status : Status := .ok
  start : W64 := 0
  ended : W64 := 0
  laneOff : Bool := false
  colOff : Bool := false
  banked : Bool := false
  inQueue : Bool := false
  entered : W64 := 0
  nonfin : Nat := 0
  sat : Nat := 0
  satFlag : Bool := false
  skip : Bool := false
  begun : Bool := false
  waitFrom : Option W64 := none
  blocksPlaced : Nat := 0
  blocksEnded : Nat := 0
  startedOn : List Nat := []
  waits : List Nat := []
  deriving DecidableEq, Repr

/-- A held tile set (R101, R170): geometry, the core of unit (t, 0) for each tile t, saturation flags;
`keep` is false once a KEEP operation has ended with WRITE or REDUCE, which leaves the tiles undefined for
a later KEEP while the window still shows them. -/
structure HeldSet where
  m : Nat
  n : Nat
  p : Nat
  cores : List Nat
  sat : List Bool
  keep : Bool := true
  deriving DecidableEq, Repr

/-- An open chain of banked operations (R249): their sequence numbers in bank order, the last
descriptor, the cores that hold the tiles. -/
structure Chain where
  seqs : List W32
  desc : Bytes
  cores : List Nat
  deriving DecidableEq, Repr

/-- A stream context (Table OPS-10) with the bytes held in the reassembly buffer (R236) and the bytes
handed to the destination, whether or not it has acknowledged them. -/
structure Stream where
  st : Nat := 0
  spaces : W8 := 0
  seq : W32 := 0
  src : W64 := 0
  dst : W64 := 0
  length : Nat := 0
  offset : Nat := 0
  lastProgress : W64 := 0
  tmo : W32 := 0
  pushed : Nat := 0
  held : Bytes := []
  deriving DecidableEq, Repr

/-- An operation list's indices (R216, R220). `stuck` holds the entries that retired other than OK,
which OPS_HEAD does not pass (R232). -/
structure OpList where
  head : Nat := 0
  fetch : Nat := 0
  tail : Nat := 0
  count : Nat := 0
  stuck : List Nat := []
  deriving DecidableEq, Repr

/-- A line of the echo cache (Table ECH-2); set and way as R194 gives them. Its data lies in the echo slice. `due`
marks an ACCUM line to be sent once the earlier packet for its address is acknowledged (R203), for the operation
that it names. -/
structure Line where
  addr : W64
  st : LineState
  fn : Nat := 0
  epoch : W16 := 0
  mask : BitVec 128 := 0
  hint : Nat := 0
  lastAdd : W64 := 0
  set : Nat := 0
  way : Nat := 0
  stamp : Nat := 0
  tag : Nat := 0
  due : Option W32 := none
  deriving DecidableEq, Repr

/-- A thread that a remote request serves: where it sits, and the bytes of the line that it loads. -/
structure Waiter where
  loc : Loc
  thread : Nat
  off : Nat
  len : Nat
  deriving DecidableEq, Repr

/-- A reduction contribution to one line, or a returned READ line (`install`), that waits for a way (R201): `way` is
the way of its victim, which drains for it; `threads` are those that contributed (R153). -/
structure Contrib where
  seq : W32
  fn : Nat
  addr : W64
  hint : Nat
  mask : BitVec 128
  data : Bytes
  install : Bool := false
  way : Option Nat := none
  threads : List (Loc × Nat) := []
  deriving DecidableEq, Repr

/-- A request that its owner has not answered (R203, R210). `sent` is false while an earlier packet
for the same line is unacknowledged, `late` true once its deadline has passed, `joinable` false for a fill whose line
the chamber has since stored to (R150, R198). -/
structure Req where
  tag : Nat
  kind : ReqKind
  addr : W64
  deadline : W64
  seq : W32
  sent : Bool := true
  late : Bool := false
  pkt : Packet
  waiters : List Waiter := []
  install : Bool := true
  joinable : Bool := true
  hint : Nat := 0
  stream : Nat := 0
  deriving DecidableEq, Repr

/-- An ash record that waits for ring space (R272): its operation, its bytes without the CRC, whether
it is the SEAL record. -/
structure AshWait where
  seq : W32
  bytes : Bytes
  isSeal : Bool
  deriving DecidableEq, Repr

/-- The hold-back window of R312 and R314. -/
structure HoldBack where
  last : Option W64 := none
  held : Nat := 0
  deriving DecidableEq, Repr

/-- A snapshot whose banks are latching (R396, R399, R400): its target time, its SNAP_ID, where the banks' free edges
begin, and the banks that have yet to latch. -/
structure Latching where
  target : W64
  snapId : W32
  base : Nat
  left : List Nat
  deriving DecidableEq, Repr

/-- One chamber. The first part comes from the image (Table STR-3, R36, R294). `stopped` holds the executing operations
that a halt has cancelled, while a compare or a fault of theirs may still arrive (R130,
Table OPS-8), and `haltAt` is when it took hold; `turn` is the list
that was read last (R221). -/
structure Chamber where
  st : ChState := .undefined
  cls : Nat := 0
  vf : Nat := 0
  alcoves : Nat := 0
  clusters : W64 := 0
  masks : List W64 := []
  opShare : Nat := 0
  winDepth : Nat := 0
  pwrShare : Nat := 0
  bulkWt : Nat := 0
  linkWt : Nat := 0
  bridgeWt : Nat := 0
  adpCap : Nat := 0
  ranges : List (Nat × Nat) := []
  peers : List (Nat × Nat) := []
  regs : Tab W32 := []
  haltPend : Option W16 := none
  ownerSet : Bool := false
  key : Nat := 0
  oldKey : Nat := 0
  rotPtr : Nat := 0
  apv : Apv := {}
  counters : Tab W32 := []
  lists : Tab OpList := []
  turn : Nat := 0
  ops : List Op := []
  stopped : List Op := []
  haltAt : W64 := 0
  held : Tab (Option HeldSet) := []
  chains : Tab (Option Chain) := []
  streams : Tab Stream := []
  invBusy : Bool := false
  ptbase : Nat := 0
  ptNext : Nat := 0
  tlb : Tab (Option W64) := []
  lines : List Line := []
  reqs : List Req := []
  oldTags : List Nat := []
  waitAlloc : List Contrib := []
  nextTag : Nat := 0
  stamp : Nat := 0
  ash : List AshWait := []
  ashFrom : Option W64 := none
  stepDeltas : Nat := 0
  stepUpdates : Nat := 0
  stepSkips : Nat := 0
  sealWr : W32 := 0
  stallSeen : Tab W64 := []
  slack : Tab Nat := []
  snap : Option Latching := none
  eHist : List Nat := []
  ecc : HoldBack := {}
  deriving DecidableEq, Repr

/-- One thread (R135, R141 to R148). `regs` holds G0-G7 at 0 to 7, the seven window blocks at 8 to 119
and T0-T7 at 120 to 127; `bad` marks those whose parity fails (R314). -/
structure Thread where
  live : Bool := true
  pc : W64 := 0
  depth : Nat := 0
  win : Nat := 0
  res : Int := 1
  oldest : Nat := 0
  trap : Bool := false
  timeHi : W32 := 0
  wait : Wait := .run
  age : Nat := 0
  regs : Tab W32 := []
  bad : Tab Bool := []
  deriving DecidableEq, Repr

/-- A line of a core's instruction cache (R135): 64 bytes at a virtual address; `bad` where its parity fails (R314). -/
structure CodeLine where
  addr : Nat
  bytes : Bytes
  bad : Bool := false
  deriving DecidableEq, Repr

/-- A product lane of a matrix engine (R94): its row register and its queue of rows, in a front half for the operation
that executes and a back half for the one that is being staged. An element is a code and a scale byte. -/
structure Lane where
  row : List (Nat × Nat) := []
  front : List (List (Nat × Nat)) := []
  back : List (List (Nat × Nat)) := []
  deriving DecidableEq, Repr

/-- A core's matrix engine (R85, R94, R95, R120): its lanes, the checksum lane's row (residues, or exact BF16 sums
m × 2^e), and what its feeder has staged: for which operation, how many K steps, how many broadcast vectors. -/
structure Engine where
  lanes : List Lane := []
  check : List Nat := []
  checkB : List (Int × Int) := []
  staged : Option W32 := none
  steps : Nat := 0
  vecs : Nat := 0
  deriving DecidableEq, Repr

/-- One resident group of 32 threads (R133, R134). -/
structure Group where
  ch : Nat
  seq : W32
  block : Nat
  index : Nat
  alcove : Nat
  spill : Nat
  spillOff : Nat
  home : Nat
  sharedOff : Nat
  shared : Nat
  threads : List Thread
  deriving DecidableEq, Repr

/-- Space taken in a core's thread region (R169). -/
structure Alloc where
  core : Nat
  off : Nat
  len : Nat
  ch : Nat
  seq : W32
  block : Nat
  deriving DecidableEq, Repr

/-- A flit held in a replay buffer (R286): sequence number, lane, payload, START, how often it was resent. -/
structure TxFlit where
  seq : Nat
  vl : Nat
  start : W8
  payload : Bytes
  resends : Nat := 0
  deriving DecidableEq, Repr

/-- Packet bytes in hand, and the receive buffer that holds them; `none` for bytes of this module. -/
structure Piece where
  bytes : Bytes
  slot : Option Slot
  deriving DecidableEq, Repr

/-- A packet in a lane's output queue (R290, R402): its source among the arbiter's inputs, when it came, its
length, the bytes sent, and those in hand and unsent; `ch` is the chamber that injected it. -/
structure Queued where
  input : Nat
  since : W64
  len : Nat
  sent : Nat := 0
  pieces : List Piece
  ch : Option Nat := none
  deriving DecidableEq, Repr

/-- Where the bytes of a packet that a port is receiving go (R290, R296); `unknown` until its first 16 bytes are
there. -/
inductive Way where
  | unknown | here | onward (port : Nat) | dropped
  deriving DecidableEq, Repr

/-- A packet that a lane is receiving: the pieces kept, the bytes received, LEN (0 while unknown). -/
structure Incoming where
  pieces : List Piece := []
  got : Nat := 0
  len : Nat := 0
  way : Way := .unknown
  deriving DecidableEq, Repr

/-- One link port (R283 to R289, R301 to R304). `sent` and `acked` are per lane: flits sent and the
peer's CRED; `freed` is what this receiver reports in CRED, `reported` what it last put in a flit. `rep` lists
the flits still to be resent, `credit` the arbiters' credits (R403), `rxCount` the flits accepted per lane and
`rxLeft` the bytes of each that are neither forwarded nor consumed (R287). `txBits` of `txLine` wait to fill a
codeword; the next flit received begins at bit `rxBit` of a codeword, whose part before it was uncorrectable if
`rxBad`; `bad` holds the times of the last uncorrectable codewords, and the `ber` fields the current second
(R283, Table LNK-12). `peerLink` and `ownLink` are the LINK_IDs of the last ACTIVE period (R304). -/
structure Port where
  st : PortState := .disabled
  enabled : Bool := false
  cause : TrainCause := .startUp
  full : Bool := false
  failed : Nat := 0
  txSeq : Nat := 0
  rxSeq : Nat := 0
  rxAny : Bool := false
  nak : Bool := false
  replay : List TxFlit := []
  rep : List Nat := []
  sent : Tab Nat := []
  acked : Tab Nat := []
  freed : Tab Nat := []
  reported : Tab Nat := []
  queues : Tab (List Queued) := []
  credit : Tab Int := []
  rx : Tab (Option Incoming) := []
  rxCount : Tab Nat := []
  rxLeft : Tab Nat := []
  txLine : Nat := 0
  txBits : Nat := 0
  rxBit : Nat := 0
  rxBad : Bool := false
  bad : List W64 := []
  berFrom : W64 := 0
  berWords : Nat := 0
  berErrs : Nat := 0
  peerLink : Option W32 := none
  ownLink : W32 := 0
  peerModule : BitVec 12 := 0
  peerPort : BitVec 5 := 0
  lastTx : W64 := 0
  lastRx : W64 := 0
  sinceVl3 : Nat := 15
  cvl : Nat := 0
  nextTime : W64 := 0
  peerStratum : W8 := 255
  calDone : Bool := false
  deriving DecidableEq, Repr

/-- One cluster island (R345 to R351). -/
structure Cluster where
  fcode : Nat := 0
  tcode : Nat := 0
  limit : Nat := 24
  change : Change := .none
  budget : Nat := 64
  current : Nat := 64
  thermal : Nat := 64
  droop : Bool := false
  lowSince : Option W64 := none
  maxSince : Option W64 := none
  deriving DecidableEq, Repr

/-- A chamber record (Table STR-3). -/
structure ChRec where
  chamber : Nat
  cls : Nat
  vf : Nat
  alcoves : Nat
  clusters : W64
  masks : List W64
  opShare : Nat
  winDepth : Nat
  pwrShare : Nat
  bulkWt : Nat
  linkWt : Nat
  bridgeWt : Nat
  adpCap : Nat
  deriving DecidableEq, Repr

/-- A peer entry (Table LNK-7). -/
structure PeerRec where
  chamber : Nat
  index : Nat
  module : Nat
  peer : Nat
  deriving DecidableEq, Repr

/-- A structure image as loaded (R33 to R36, Tables LNK-7 and PWR-10, R330). -/
structure Image where
  imageId : W32 := 0
  svn : Nat := 0
  chambers : List ChRec := []
  echo0 : Nat := 0
  echo1 : Nat := 0
  ranges : List (Nat × Nat × Nat) := []
  moduleId : Nat := 0
  timePort : Nat := 0xFF
  portEn : W32 := 0
  coord : Option Nat := none
  route : Tab W32 := []
  peers : List PeerRec := []
  capInit : Nat := 1200
  shift : Bool := false
  clusterF : List Nat := List.replicate 64 24
  fabricF : List Nat := [24, 24]
  teF : List Nat := [24, 24]
  mcF : List Nat := [24, 24]
  linkF : List Nat := List.replicate 24 24
  exclClusters : W64 := 0
  exclPorts : W32 := 0
  deriving DecidableEq, Repr

/-- A BAR2 merge buffer (R184). -/
structure Merge where
  unit : Nat
  bytes : List (Option W8)
  first : W64
  deriving DecidableEq, Repr

/-- A BAR2 access that waits for a rotation (R183): a read, or a write with its data. -/
structure BarWait where
  addr : Nat
  len : Nat
  data : Option Bytes := none
  deriving DecidableEq, Repr

/-- A register write of a function that waits for merge buffers (R217): the units that were incomplete when it
arrived. -/
structure HeldWrite where
  fn : Fn
  off : Nat
  v : W32
  units : List Nat
  deriving DecidableEq, Repr

/-- A host read outstanding (R375). -/
structure HostRead where
  tag : Nat
  fn : Fn
  ch : Nat
  seq : W32
  stream : Nat
  addr : W64
  len : Nat
  issued : W64
  deriving DecidableEq, Repr

/-- A SLACK report as the coordinator holds it (R358). -/
structure Report where
  time : W64
  slack : Nat
  deriving DecidableEq, Repr

/-- A housekeeping channel (R361 to R363). -/
structure HkCh where
  value : W16 := 0
  valid : Bool := false
  failed : Bool := false
  standin : Bool := false
  round : W8 := 0
  pending : Bool := false
  odd : Nat := 0
  hot : Nat := 0
  deriving DecidableEq, Repr

/-- A lantern shadow slot (Table OBS-3). -/
structure Shadow where
  counters : List W64 := []
  snapId : W32 := 0
  valid : Bool := false
  stopped : Bool := false
  latch : W64 := 0
  deriving DecidableEq, Repr

/-- The power manager (R336 to R341). `keepHalted` marks PU4 on the way back from D2, `short` a power-down that
began at U4 or U5, `cold` a cold start that has not yet reached Ready (R389); `pending` is an accepted grant with its apply time (R359); `beyond`, `railEvent` and
`railRise` are per die (R343), `trimAt`, `guard` per die (R353), `band` per stack (R364); `inHist` holds the input energy
of the last 10 windows, newest first. -/
structure Power where
  phase : Phase := .off
  target : Target := .standby
  latched : Option Target := none
  keepHalted : Bool := false
  short : Bool := false
  cold : Bool := false
  holdoff : Bool := false
  holdUntil : W64 := 0
  trip : Bool := false
  lastTrip : W16 := 0
  refusedOn : W8 := 0
  capFromGrant : Bool := false
  en : Bool := false
  input : Bool := false
  pending : Option (Nat × W64) := none
  beyond : Tab Bool := []
  railEvent : Tab (Option W64) := []
  railRise : Tab W64 := []
  trimAt : Tab (Option W64) := []
  guard : Tab Nat := []
  band : Tab Nat := []
  inHist : List Nat := []
  railOver : Tab (Option W64) := []
  active : Bool := false
  deriving DecidableEq, Repr

/-- The PCIe endpoint (R371 to R379, R389 to R391). -/
structure Pcie where
  speed : Nat := 0
  width : Nat := 0
  perst : Bool := true
  warm : Bool := false
  warmCause : Nat := 0
  vfEnable : Bool := false
  vfCount : Nat := 0
  busMaster : Tab Bool := []
  relaxed : Tab Bool := []
  decode : Tab Bool := []
  bar2Log : Nat := 34
  readSize : Tab Nat := []
  d3hot : Bool := false
  fnMask : Tab Bool := []
  vecMask : Tab Bool := []
  pba : Tab Bool := []
  due : Tab Bool := []
  lastMsg : Tab (Option W64) := []
  hostTag : Nat := 0
  deriving DecidableEq, Repr

/-- The SPDM responder (R63): negotiation done, established and opening sessions by session id. -/
structure Spdm where
  version : Bool := false
  caps : Bool := false
  algs : Bool := false
  opening : List W32 := []
  sessions : List W32 := []
  count : Nat := 0
  deriving DecidableEq, Repr

/-- Firmware copies and fuses (R385). `booted` is 0 for the recovery responder, 1 for A, 2 for B;
`newest` is the copy that boots first. -/
structure Firmware where
  verA : W16 := 0
  verB : W16 := 0
  secA : Nat := 0
  secB : Nat := 0
  okA : Bool := true
  okB : Bool := true
  fuses : Nat := 0
  ucode : W16 := 0
  ucodeNext : W16 := 0
  booted : Nat := 0
  newest : Nat := 1
  deriving DecidableEq, Repr

/-- The coordinator (R358) and the SLACK reporter (R356): `lastSlack` is the end of the last window, `lastIn`
the input energy of the last 100 µs window in µJ. -/
structure Coord where
  reports : Tab (Option Report) := []
  grants : Tab Nat := []
  seq : W32 := 0
  slackNo : W32 := 0
  lastSlack : W64 := 0
  lastIn : Nat := 0
  nextPeriod : W64 := 0
  deriving DecidableEq, Repr

/-- The time base (R27 to R30). `created` closes R29 step 1, `backDone` notes its one backward load (R28); `slew`
is 0 none, 1 behind, 2 ahead; `silent` holds from a loss of the time input until a time message arrives, `lost`
until the offset is back within ±50 ns. -/
structure TimeBase where
  created : Bool := false
  backDone : Bool := false
  slew : Nat := 0
  phase : Nat := 0
  lastMsg : W64 := 0
  silent : Bool := false
  lost : Bool := false
  deriving DecidableEq, Repr

/-- What the module has emitted: completions, host requests, messages, flits, management responses. -/
inductive Out where
  | cpl (fn : Fn) (data : Bytes) (ep : Bool)
  | cplUr (fn : Fn)
  | cfg (fn : Fn) (v : W32)
  | cfgRetry (fn : Fn)
  | hostWrite (fn : Fn) (addr : W64) (data : Bytes) (relaxed : Bool)
  | hostRead (fn : Fn) (tag : Nat) (addr : W64) (len : Nat)
  | msix (fn : Fn) (vector : Nat)
  | flit (port : Nat) (bytes : Bytes)
  | codeword (port : Nat) (lanes : List (List (BitVec 10)))
  | train (port : Nat) (full : Bool)
  | trainEnd (port : Nat) (linkId : W32) (module : Nat) (ack : Option Nat)
  | mctp (command : Nat) (code : Nat) (data : Bytes)
  | spdm (message : Nat) (body : Bytes)
  | pldm (code : W16)
  | tap (die : Nat) (data : W32)
  deriving DecidableEq, Repr

/-- The state of the module and, last, the queue of waiting commands. -/
structure State where
  time : W64 := 0
  mtb : TimeBase := {}
  g : Tab W32 := []
  hold : Tab (Option W32) := []
  heldWrites : List HeldWrite := []
  chambers : Tab Chamber := []
  ports : Tab Port := []
  arrived : List Packet := []
  clusters : Tab Cluster := []
  islandF : Tab Nat := []
  groups : Tab (Option Group) := []
  allocs : List Alloc := []
  icache : Tab (List CodeLine) := []
  engines : Tab Engine := []
  core : Mem := []
  coreBad : Tab Bool := []
  gal : Mem := []
  galValid : Tab Bool := []
  galErr : Tab W16 := []
  bulk : Mem := []
  bulkKey : Tab Nat := []
  bulkErr : Tab Nat := []
  merge : List Merge := []
  bar2Wait : List BarWait := []
  slots : Tab Bytes := []
  staging : Mem := []
  prog : Option (Nat × Bytes) := none
  img : Image := {}
  imgDigest : Bytes := []
  flow : Tab W32 := []
  wear : Tab Nat := []
  flowBusy : Bool := false
  flowQueue : List (Nat × W32) := []
  commit : Option Scope := none
  apv : Apv := {}
  dbg : Tab W32 := []
  spdm : Spdm := {}
  firmware : Firmware := {}
  pcie : Pcie := {}
  mbxReq : Mem := []
  mbxResp : Mem := []
  mbxCmd : Option W32 := none
  power : Power := {}
  hk : Tab HkCh := []
  hkRound : Nat := 0
  linkId : W32 := 0
  coord : Coord := {}
  banks : Tab W64 := []
  lnt : LntState := .idle
  lntTime : W64 := 0
  latching : Option Latching := none
  shadows : Tab Shadow := []
  opShadows : Tab Shadow := []
  nochEcc : HoldBack := {}
  sramEcc : HoldBack := {}
  cbistUpdate : Bool := false
  cbistTests : Nat := 0
  tested : Tab Nat := []
  hostReads : List HostRead := []
  hostWait : List (Nat × Nat) := []
  jtag : Tab W8 := []
  draws : Nat := 0
  free : Nat := 0
  out : List Out := []
  pending : List Instr := []
  deriving DecidableEq, Repr

/-- Cold-start values of the global registers whose reset value is not 0 (the Reset columns of the
chapters' tables): MTB_STAT, CHK_SUSPECT_THR, SWP_CFG, PWR_STAT, PWR_CAP, PWR_GRANT, PWR_COORD_CFG,
DMP_CFG, DMP_ILIM, PWR_TLIM, MOD_ID, MOD_SB, MOD_DMA_TMO, EVR_SIZE, ARB_CFG. -/
def coldRegs : Tab W32 :=
  [ (0x0108, 0x0000FF00), (0x0C00, 0x3), (0x2104, 0x8), (0x3008, 0x057804B0), (0x300C, 0x4B0),
    (0x301C, 0x01F40A01), (0x3020, 0x2840), (0x3024, 0x02BC02BC), (0x3030, 0x00036E64),
    (0x4000, 0x01110009), (0x4020, 0x32), (0x4104, 0x6), (0x5020, 0x800) ]

/-- Flowstone as the factory test leaves it on a part without failing bonds (Table STR-14, Table ECC-5): the map
of every shaft has no entry, and CHECK 62,875 is that of an empty map; every other word is blank (log entry 7). -/
def factoryFlow : Tab W32 := (List.range 1024).map (fun c => (1024 + 15 * c, 62875#32 <<< 16))

/-- The module with no input power, before start-up step 1 (Table PWR-1: Off). Every register holds its
cold-start value; what the manual leaves open is named in the log. -/
def State.reset : State := { g := coldRegs, flow := factoryFlow }

end Sys2Proof.Machine
end

