-- ==== Sys2Proof/Machine/Ops.lean ====
section
/-! DEFINITION. Ops.lean: the named operations over registers, counters, free values and outputs that
every meaning goes through. -/
namespace Sys2Proof.Machine
open Sys2Proof

/-- What a meaning answers: the machine goes on in `s`. -/
def done (s : State) : Host.Outcome State Fault Refusal := .next s

/-- Applies `f` for every element of a list, in order. -/
def forAll {α : Type} (l : List α) (f : α → State → State) (s : State) : State :=
  l.foldl (fun t a => f a t) s

/-- Applies `f` if `b` holds. -/
def ifdo (b : Bool) (f : State → State) (s : State) : State := if b then f s else s

/-! ## Chambers and registers -/

/-- Chamber `n`. -/
def chOf (s : State) (n : Nat) : Chamber := Tab.get {} n s.chambers

/-- Puts chamber `n`. -/
def setCh (n : Nat) (c : Chamber) (s : State) : State := { s with chambers := Tab.set {} n c s.chambers }

/-- Changes chamber `n`. -/
def modCh (n : Nat) (f : Chamber → Chamber) (s : State) : State := setCh n (f (chOf s n)) s

/-- Whether the loaded image defines chamber `n` (R13, Table STR-7). -/
def defined (s : State) (n : Nat) : Bool := decide ((chOf s n).st ≠ .undefined)

/-- Whether chamber `n` is IDLE. -/
def isIdle (s : State) (n : Nat) : Bool := decide ((chOf s n).st = .idle)

/-- Whether chamber `n` is RUNNING. -/
def isRunning (s : State) (n : Nat) : Bool := decide ((chOf s n).st = .running)

/-- The chambers 0 to 31. -/
def allCh : List Nat := List.range 32

/-- A register of a chamber block. -/
def cget (off : Nat) (c : Chamber) : W32 := Tab.get 0 off c.regs

/-- Sets a register of a chamber block. -/
def cset (off : Nat) (v : W32) (c : Chamber) : Chamber := { c with regs := Tab.set 0 off v c.regs }

/-- Changes a register of a chamber block. -/
def cmod (off : Nat) (f : W32 → W32) (c : Chamber) : Chamber := cset off (f (cget off c)) c

/-- A register of chamber `n`'s block. -/
def creg (s : State) (n off : Nat) : W32 := cget off (chOf s n)

/-- Sets a register of chamber `n`'s block. -/
def setCreg (n off : Nat) (v : W32) (s : State) : State := modCh n (cset off v) s

/-- A 64-bit pair of a chamber block, low word at `off` (R6). -/
def cpair (off : Nat) (c : Chamber) : Nat := (cget off c).toNat + 2 ^ 32 * (cget (off + 4) c).toNat

/-- Sets a 64-bit pair of a chamber block. -/
def csetPair (off v : Nat) (c : Chamber) : Chamber :=
  cset (off + 4) (BitVec.ofNat 32 (v >>> 32)) (cset off (BitVec.ofNat 32 v) c)

/-- Adds to a 64-bit pair of a chamber block. -/
def caddPair (off n : Nat) (c : Chamber) : Chamber := csetPair off (cpair off c + n) c

/-- Adds to a saturating 32-bit count of a chamber block. -/
def ccount (off n : Nat) (c : Chamber) : Chamber := cmod off (fun w => satAdd w n) c

/-- A global register. -/
def gget (off : Nat) (s : State) : W32 := Tab.get 0 off s.g

/-- Sets a global register. -/
def gset (off : Nat) (v : W32) (s : State) : State := { s with g := Tab.set 0 off v s.g }

/-- Changes a global register. -/
def gmod (off : Nat) (f : W32 → W32) (s : State) : State := gset off (f (gget off s)) s

/-- Sets bit `i` of a global register. -/
def gsetBit (off i : Nat) (s : State) : State := gmod off (fun w => setBit w i true) s

/-- A 64-bit pair of the global block (R6). -/
def gpair (off : Nat) (s : State) : Nat := (gget off s).toNat + 2 ^ 32 * (gget (off + 4) s).toNat

/-- Sets a 64-bit pair of the global block. -/
def gsetPair (off v : Nat) (s : State) : State :=
  gset (off + 4) (BitVec.ofNat 32 (v >>> 32)) (gset off (BitVec.ofNat 32 v) s)

/-- Adds to a 64-bit pair of the global block. -/
def gaddPair (off n : Nat) (s : State) : State := gsetPair off (gpair off s + n) s

/-- Adds to a saturating 32-bit count of the global block. -/
def gcount (off n : Nat) (s : State) : State := gmod off (fun w => satAdd w n) s

/-- Adds `k` to counter `i` of bank `b` (R394, R395); counters wrap modulo 2^64. -/
def bump (b i k : Nat) (s : State) : State :=
  let key := 16 * b + i
  { s with banks := Tab.set 0 key (Tab.get 0 key s.banks + BitVec.ofNat 64 k) s.banks }

/-- Adds to counter `i` of chamber `n`'s bank (Table OBS-1: banks 156 to 187). -/
def bumpCh (n i k : Nat) (s : State) : State := bump (156 + n) i k s

/-- The module time as a number. -/
def now (s : State) : Nat := s.time.toNat

/-! ## The image's shape -/

/-- The set bits of a 64-bit mask, in ascending order. -/
def bits64 (w : W64) : List Nat := (List.range 64).filter (fun i => w.getLsbD i)

/-- The set bits of a 32-bit mask, in ascending order. -/
def bits32 (w : W32) : List Nat := (List.range 32).filter (fun i => w.getLsbD i)

/-- The cores of a cluster (R19). -/
def coresOf (cl : Nat) : List Nat := (List.range 16).map (fun i => 16 * cl + i)

/-- A chamber's cores in ascending global core id. -/
def chCores (c : Chamber) : List Nat := (bits64 c.clusters).flatMap coresOf

/-- The clusters of alcove `k` (R45); a variant chamber is one alcove. -/
def alcoveMask (c : Chamber) (k : Nat) : W64 := c.masks.getD k 0

/-- The cores of alcove `k` in ascending global core id. -/
def alcoveCores (c : Chamber) (k : Nat) : List Nat := (bits64 (alcoveMask c k)).flatMap coresOf

/-- The die of a core (R19). -/
def dieOfCore (core : Nat) : Nat := core / 512

/-- The die whose bellows leads a chamber (R226). -/
def leaderDie (c : Chamber) : Nat := ((bits64 c.clusters).headD 0) / 32

/-- The alcove of a chamber that holds a core. -/
def alcoveOfCore (c : Chamber) (core : Nat) : Nat :=
  ((List.range c.alcoves).find? (fun k => (alcoveMask c k).getLsbD (core / 16))).getD 0

/-- The chamber that holds a cluster. -/
def chOfCluster (s : State) (cl : Nat) : Option Nat :=
  allCh.find? (fun n => defined s n && (chOf s n).clusters.getLsbD cl)

/-- Whether a cluster is excluded or unusable: its island stops and its slices are not reachable (R331). -/
def isolated (s : State) (cl : Nat) : Bool := s.img.exclClusters.getLsbD cl || (gpair 0x2008 s).testBit cl

/-- Bytes of a slice that the echo reservation takes on a die: ECHO_RES / 512 (R44). -/
def echoPart (s : State) (die : Nat) : Nat :=
  (if die = 0 then s.img.echo0 else s.img.echo1) * 0x2000000 / 512

/-- Bytes that a core's slice gives to the window (R173). -/
def sliceWin (s : State) (core : Nat) : Nat := 0x1000000 - echoPart s (dieOfCore core)

/-- Size of a chamber's gallery window in bytes. -/
def winSize (s : State) (c : Chamber) : Nat := ((chCores c).map (sliceWin s)).sum

/-- Size of a chamber's echo slice on a die (R44). -/
def echoSize (s : State) (c : Chamber) (die : Nat) : Nat :=
  ((chCores c).filter (fun k => dieOfCore k = die)).length * echoPart s die

/-! ## Where the gallery window lies (R173, R174) -/

/-- Key of a gallery byte: core and offset in its 16 MiB slice, in the order of R173 step 4. -/
def galKey (core off : Nat) : Nat := core * 0x1000000 + off

/-- The core and slice offset of a window address (R173 step 3), over the cores left. -/
def winLocIn (s : State) : List Nat → Nat → Option (Nat × Nat)
  | [], _ => none
  | core :: l, w => if w < sliceWin s core then some (core, w) else winLocIn s l (w - sliceWin s core)

/-- The core and slice offset of a window address of a chamber. -/
def winLoc (s : State) (c : Chamber) (w : Nat) : Option (Nat × Nat) := winLocIn s (chCores c) w

/-- Stores a whole gallery word: data, check difference 0, valid bit 1 (R174, R311). -/
def galPut (core off : Nat) (bs : Bytes) (s : State) : State :=
  let w := galKey core off / 32
  { s with gal := memWrite s.gal (galKey core off) bs,
           galValid := Tab.set false w true s.galValid,
           galErr := Tab.set 0 w 0 s.galErr }

/-! ## Free values and draws -/

/-- The next free value, and the state that has used it. -/
def fresh (s : State) : W64 × State := (Config.freeWord s.free, { s with free := s.free + 1 })

/-- The next draw of the root of trust (R58), and the state that has used it. -/
def draw (s : State) : BitVec 256 × State := (Config.drbg s.draws, { s with draws := s.draws + 1 })

/-! ## Outputs -/

/-- Emits an output; the newest stands first. -/
def emit (o : Out) (s : State) : State := { s with out := o :: s.out }

/-- The PCIe function of a chamber's host traffic (R374). -/
def chFn (s : State) (n : Nat) : Fn :=
  if s.pcie.vfEnable then Fin.ofNat 33 (chOf s n).vf else 0

/-- The chamber that a virtual function serves (R13). -/
def fnCh (s : State) (fn : Fn) : Option Nat :=
  allCh.find? (fun n => defined s n && (chOf s n).vf == fn.val)

/-- Whether the module can issue a host request for a function (R374): the link is up and the
function's Bus Master Enable is 1. -/
def canIssue (s : State) (fn : Fn) : Bool :=
  decide (s.pcie.speed ≠ 0) && Tab.get false fn.val s.pcie.busMaster

/-- A 4-byte or 64-byte posted write for a function in PCIe order (R374). -/
def hostWrite (fn : Fn) (addr : Nat) (data : Bytes) (s : State) : State :=
  emit (.hostWrite fn (BitVec.ofNat 64 addr) data false) s

/-- Key of an MSI-X vector. -/
def vecKey (fn : Fn) (v : Nat) : Nat := fn.val * 2048 + v

/-- Whether a vector is masked: its own mask, its function's mask, or no Bus Master Enable (R379). -/
def vecMasked (s : State) (fn : Fn) (v : Nat) : Bool :=
  Tab.get true (vecKey fn v) s.pcie.vecMask || Tab.get false fn.val s.pcie.fnMask || !canIssue s fn

/-- Sends a message on a vector, or sets its pending bit while it is masked (R379). -/
def sendVec (fn : Fn) (v : Nat) (s : State) : State :=
  let k := vecKey fn v
  if vecMasked s fn v then { s with pcie := { s.pcie with pba := Tab.set false k true s.pcie.pba } }
  else emit (.msix fn v)
    { s with pcie := { s.pcie with pba := Tab.set false k false s.pcie.pba,
                                   due := Tab.set false k false s.pcie.due,
                                   lastMsg := Tab.set none k (some s.time) s.pcie.lastMsg } }

/-- Signals a vector: at once, or when `us` microseconds since its last message have passed (R379). -/
def signalVec (fn : Fn) (v us : Nat) (s : State) : State :=
  let k := vecKey fn v
  match Tab.get none k s.pcie.lastMsg with
  | some t =>
    if now s < t.toNat + 1000 * us then { s with pcie := { s.pcie with due := Tab.set false k true s.pcie.due } }
    else sendVec fn v s
  | none => sendVec fn v s

end Sys2Proof.Machine
end

