-- ==== Sys2Proof/Machine/Flags.lean ====
section
/-! DEFINITION. Flags.lean: event codes and their classes, event records and rings (R376 to R380, R408),
fault registers of the chapters, and how a chamber or the module halts (R232, R333, R409). -/
namespace Sys2Proof.Machine
open Sys2Proof

/-! ## Codes -/

/-- The job-fatal codes of the chapters' event tables; 0x0D02 is job-fatal only with HALT = 1 (R278). -/
def jobFatal (code : Nat) : Bool :=
  (0x0601 ≤ code && code ≤ 0x0605) || code == 0x0701 || code == 0x0702 || code == 0x0704 ||
  (0x0801 ≤ code && code ≤ 0x0805) || (0x0901 ≤ code && code ≤ 0x0907) ||
  (0x0A01 ≤ code && code ≤ 0x0A05) || code == 0x0A07 || (0x0B02 ≤ code && code ≤ 0x0B07) ||
  code == 0x0C01 || code == 0x0C02 || (0x0D04 ≤ code && code ≤ 0x0D07) || code == 0x0F02 ||
  code == 0x0F0B || code == 0x1003 || code == 0x1103 || code == 0x1203

/-- The module-fatal codes (Table ECC-7). -/
def moduleFatal (code : Nat) : Bool :=
  code == 0x0F08 || code == 0x0F09 || code == 0x100A || code == 0x100B || code == 0x100C

/-- The codes that also go to the operator (R52, R129, R307, R335, R370, R393). -/
def toOperator (code : Nat) : Bool :=
  code == 0x0301 || code == 0x0703 || code / 256 == 0x0E || (0x0F07 ≤ code && code ≤ 0x0F0A) || code == 0x1001 ||
  code == 0x1005 || (0x1007 ≤ code && code ≤ 0x100C) || code == 0x1104 || code == 0x1106

/-- FLAGS of a record (Table MOD-3). -/
def flagsOf (code : Nat) : Nat := (if jobFatal code then 1 else 0) + (if moduleFatal code then 2 else 0)

/-! ## Records -/

/-- The generic event record (Table MOD-3). DETAIL fields that no chapter states are the free values
`rest` to `rest` + 5 (R376; log entry 63). -/
def genericRecord (code flags chamber : Nat) (seq : Nat) (time : Nat) (details : List Nat) (rest : Nat) : Bytes :=
  natLe 2 code ++ natLe 1 flags ++ natLe 1 chamber ++ natLe 4 seq ++ natLe 8 time ++
  (List.range 6).flatMap (fun i => natLe 8 (details.getD i (Config.freeWord (rest + i)).toNat))

/-- A register of a ring's block (Table MOD-5): the global ring for `none`. -/
def ringGet (s : State) (r : Option Nat) (off : Nat) : W32 :=
  match r with
  | none => gget (0x4100 + off) s
  | some n => creg s n (0x1200 + off)

/-- Sets a register of a ring's block. -/
def ringSet (r : Option Nat) (off : Nat) (v : W32) (s : State) : State :=
  match r with
  | none => gset (0x4100 + off) v s
  | some n => setCreg n (0x1200 + off) v s

/-- Records of a ring, as log2: 6 to 16, other values act as 6 (Table MOD-5). -/
def ringLog (s : State) (r : Option Nat) : Nat :=
  let l := fld (ringGet s r 0x04) 4 0
  if 6 ≤ l ∧ l ≤ 16 then l else 6

/-- Whether a ring is full (R378). -/
def ringFull (s : State) (r : Option Nat) : Bool :=
  decide (2 ^ ringLog s r ≤ (ringGet s r 0x18 - ringGet s r 0x1C).toNat)

/-- The function whose host traffic carries a ring (R374). -/
def ringFn (s : State) (r : Option Nat) : Fn :=
  match r with
  | none => 0
  | some n => chFn s n

/-- Discards a record (R378). -/
def dropRecord (r : Option Nat) (s : State) : State :=
  let s1 := ringSet r 0x24 (setBit (ringGet s r 0x24) 1 true) s
  let s2 := ringSet r 0x28 (satAdd (ringGet s1 r 0x28) 1) s1
  match r with
  | none => s2
  | some n => bumpCh n 14 1 s2

/-- A vector field of EVR_CFG: 62 and 63 act as 0 (R379). -/
def vecField (v : Nat) : Nat := if v ≥ 62 then 0 else v

/-- Signals the interrupt of a record just written (Table MOD-4). -/
def signalRing (r : Option Nat) (code : Nat) (fatal : Bool) (s : State) : State :=
  let us := fld (ringGet s r 0x20) 15 0
  match r with
  | none => signalVec 0 0 us s
  | some n =>
    let cfg := ringGet s r 0x00
    if bit cfg 1 then signalVec 0 (32 + n) us s
    else if s.pcie.vfEnable then
      let v := if code = 0x0B01 then fld cfg 13 8 else if fatal then fld cfg 21 16 else fld cfg 29 24
      signalVec (chFn s n) (vecField v) us s
    else s

/-- Whether a record raised now for a ring would be a host request that the module cannot issue (R375). -/
def ringStuck (s : State) (r : Option Nat) : Bool :=
  bit (ringGet s r 0x00) 0 && !ringFull s r && !canIssue s (ringFn s r)

/-- Writes a 64 B record to a ring, or discards it (R377, R378). -/
def writeRecord (r : Option Nat) (code : Nat) (fatal : Bool) (rec : Bytes) (s : State) : State :=
  if !bit (ringGet s r 0x00) 0 || ringFull s r || !canIssue s (ringFn s r) then dropRecord r s
  else
    let w := ringGet s r 0x18
    let base := (ringGet s r 0x08).toNat + 2 ^ 32 * (ringGet s r 0x0C).toNat
    let shadow := (ringGet s r 0x10).toNat + 2 ^ 32 * (ringGet s r 0x14).toNat
    let fn := ringFn s r
    let s1 := hostWrite fn (base + 64 * (w.toNat % 2 ^ ringLog s r)) rec s
    let s2 := ringSet r 0x18 (w + 1) s1
    let s3 := ifdo (decide (shadow ≠ 0)) (hostWrite fn shadow (natLe 4 (w + 1).toNat)) s2
    signalRing r code fatal s3

/-- Table OBS-2: the chamber bank counts the events that name the chamber. -/
def countEvent (r : Option Nat) (s : State) : State :=
  match r with
  | none => s
  | some n => bumpCh n 13 1 s

/-- The ring of an event that names chamber `n` (R408). -/
def ringOf (s : State) (n : Nat) : Option Nat := if defined s n then some n else none

/-! ## Halts -/

/-- TYPE of a descriptor (Table OPS-2). -/
def opType (o : Op) : Nat := at_ o.desc 0 1

/-- Whether TYPE is of the matrix class. -/
def isMatrix (t : Nat) : Bool := t == 1 || t == 2 || t == 6

/-- Time from EXECUTING to RETIRING in ns; 0 for an operation that never executed. -/
def execTime (o : Op) : Nat :=
  match o.state with
  | .fetched => 0
  | .staged => 0
  | _ => min 0xFFFFFFFF (o.ended.toNat - o.start.toNat)

/-- Counter of the chamber bank that collects the executing time of a class (Table OBS-2). -/
def timeBank (t : Nat) : Option Nat :=
  if isMatrix t then some 1 else if t = 3 then some 2 else if t = 4 ∨ t = 5 then some 3 else none

/-- A MATMUL or CONV of MODE 1, or staged with both checks off (R126). -/
def unchecked (o : Op) : Bool :=
  (opType o == 1 || opType o == 2) && (at_ o.desc 0x5B 1 == 1 || (o.laneOff && o.colOff))

/-- Entries that OPS_HEAD passes: from `head`, each fetched entry that no operation in flight holds and
that retired OK (R224, R232). -/
def headFrom (live : List Nat) (stuck : List Nat) (size fetch : Nat) : Nat → Nat → Nat
  | 0, h => h
  | n + 1, h =>
    if h = fetch ∨ live.contains h ∨ stuck.contains h then h
    else headFrom live stuck size fetch n ((h + 1) % size)

/-- Entries of list `k`: 2^LSIZE, or 0 for a disabled list (R215). -/
def listSize (c : Chamber) (k : Nat) : Nat :=
  let l := fld (cget (0xA08 + 0x20 * k) c) 4 0
  if l = 0 then 0 else 2 ^ l

/-- Advances OPS_HEAD of list `k` (R224 step 3). -/
def advanceHead (k : Nat) (c : Chamber) : Chamber :=
  let l := Tab.get {} k c.lists
  let live := (c.ops.filter (fun o => o.list == k)).map (·.entry)
  let h := headFrom live l.stuck (listSize c k) l.fetch (listSize c k) l.head
  { c with lists := Tab.set {} k { l with head := h } c.lists }

/-- Marks an entry that retired other than OK. -/
def markStuck (o : Op) (c : Chamber) : Chamber :=
  let l := Tab.get {} o.list c.lists
  { c with lists := Tab.set {} o.list { l with stuck := o.entry :: l.stuck } c.lists }

/-- The stream of a TRANSFER descriptor (Table OPS-9). -/
def streamOf (o : Op) : Nat := at_ o.desc 0x2C 4

/-- Cancels the stream of an executing TRANSFER (R232). -/
def cancelStream (o : Op) (c : Chamber) : Chamber :=
  let t := Tab.get {} (streamOf o) c.streams
  if opType o = 4 ∧ o.state = .executing ∧ (t.st = 1 ∨ t.st = 2) then
    { c with streams := Tab.set {} (streamOf o) { t with st := 5, held := [] } c.streams }
  else c

/-- The 64 bytes of a stream context (Table OPS-10). -/
def streamBytes (t : Stream) : Bytes :=
  natLe 1 t.st ++ natLe 1 t.spaces.toNat ++ natLe 2 0 ++ natLe 4 t.seq.toNat ++ natLe 8 t.src.toNat ++
  natLe 8 t.dst.toNat ++ natLe 8 t.length ++ natLe 8 t.offset ++ natLe 8 t.lastProgress.toNat ++
  natLe 4 t.tmo.toNat ++ List.replicate 12 0

/-- Writes a stream's context into the stream table of its chamber (R235, log entry 28). -/
def copyStream (n i : Nat) (s : State) : State :=
  let c := chOf s n
  let bs := streamBytes (Tab.get {} i c.streams)
  let a := cpair 0x910 c + 64 * i
  match winLoc s c a, winLoc s c (a + 32) with
  | some x, some y => galPut y.1 y.2 (slice bs 32 32) (galPut x.1 x.2 (slice bs 0 32) s)
  | _, _ => s

/-- Retires CANCELLED every operation that is not in RETIRING (R232), drops the bank queue's chains and
waiting ash records, and leaves an executing matrix operation's held tile set undefined, that is not
held (log entry 20). A halt sends no line (R211): contributions of a cancelled operation that wait for a way are
dropped, and so are its requests that wait unsent; lines that wait to be sent stay. -/
def cancelOps (c : Chamber) : Chamber :=
  let gone := c.ops.filter (fun o => o.state != .retiring)
  let lost := (gone.filter (fun o => isMatrix (opType o) && o.state == .executing)).map (·.list)
  let c1 := gone.foldl (fun a o => cancelStream o (markStuck o a)) c
  { c1 with ops := c.ops.filter (fun o => o.state == .retiring), chains := [], ash := [], ashFrom := none,
            waitAlloc := c1.waitAlloc.filter (fun k => !gone.any (fun o => o.seq == k.seq)),
            lines := c1.lines.map (fun l => { l with due := none }),
            reqs := c1.reqs.filter (fun r => r.sent || !gone.any (fun o => o.seq == r.seq)),
            held := Tab.drop (fun k => lost.contains k) c1.held }

/-- Counts operations that retire: in the banks of the leader's die and of the chamber, with the executing time of
their class (Table OBS-2). -/
def countRetired (n : Nat) (os : List Op) (s : State) : State :=
  forAll os (fun o t =>
    match timeBank (opType o) with
    | some i => bumpCh n i (execTime o) t
    | none => t) (bump (64 + leaderDie (chOf s n)) 2 os.length (bumpCh n 0 os.length s))

/-- Removes the resident groups of chamber `n` and frees their space (R232: its groups stop issuing). -/
def dropGroups (n : Nat) (s : State) : State :=
  { s with groups := s.groups.filter (fun e => match e.2 with | some g => g.ch != n | none => false),
           allocs := s.allocs.filter (fun a => a.ch != n) }

/-- A chamber enters HALTED from IDLE or RUNNING with the code of the cause; a chamber already HALTED
keeps its code (R409). -/
def haltCh (n code : Nat) (s : State) : State :=
  let c := chOf s n
  if c.st = .idle ∨ c.st = .running then
    let gone := (c.ops.filter (fun o => o.state != .retiring)).map (fun o => { o with ended := s.time })
    let live := gone.filter (fun o => o.state == .executing)
    let moving := (live.filter (fun o => opType o == 4)).map streamOf
    let c1 := ccount 0x520 (gone.countP unchecked) { cancelOps c with st := .halted, stopped := live, haltAt := s.time }
    dropGroups n (forAll moving (copyStream n)
      (countRetired n gone (setCh n (cset 0x4 (BitVec.ofNat 32 (code <<< 16)) c1) s)))
  else s

/-- A module-wide halt of one chamber (R409): CLEARING ends in HALTED, ROTATING follows R60. -/
def haltWide (code : Nat) (n : Nat) (s : State) : State :=
  let c := chOf s n
  match c.st with
  | .halted => setCreg n 0x4 (BitVec.ofNat 32 (code <<< 16)) s
  | .clearing => setCh n { c with haltPend := some (BitVec.ofNat 16 code) } s
  | .rotating =>
    if moduleFatal code then setCh n (cset 0x4 (BitVec.ofNat 32 (code <<< 16)) { c with st := .halted }) s
    else s
  | _ => haltCh n code s

/-- A module-wide halt of every chamber. -/
def haltEvery (code : Nat) (s : State) : State := forAll allCh (haltWide code) s

/-! ## Raising -/

/-- The record of an event whose host write cannot be issued (R375): event 0x1103, and a chamber's ring
halts the chamber. -/
def ringFail (r : Option Nat) (s : State) : State :=
  match r with
  | none => dropRecord none s
  | some n =>
    haltCh n 0x1103 (countEvent (some n) (dropRecord (some n) s))

/-- Raises a record on a ring: it is counted, copied to the operator where a chapter says so, and
written (R377); a ring whose function cannot issue requests follows R375. -/
def raiseRec (r : Option Nat) (code : Nat) (fatal : Bool) (rec : Bytes) (s : State) : State :=
  let s1 := ifdo (toOperator code) (emit (.pldm (BitVec.ofNat 16 code))) (countEvent r s)
  if ringStuck s1 r then ringFail r (writeRecord r code fatal rec s1)
  else writeRecord r code fatal rec s1

/-- Raises a record of the generic layout (Table MOD-3). -/
def raiseGeneric (r : Option Nat) (code flags chamber seq : Nat) (details : List Nat) (s : State) : State :=
  raiseRec r code (decide (flags ≠ 0)) (genericRecord code flags chamber seq (now s) details s.free)
    { s with free := s.free + 6 }

/-- An event that names chamber `n`, in the generic layout, with FLAGS given. -/
def eventFlags (n code flags seq : Nat) (details : List Nat) (s : State) : State :=
  raiseGeneric (ringOf s n) code flags n seq details s

/-- An event that names chamber `n`, in the generic layout. -/
def event (n code seq : Nat) (details : List Nat) (s : State) : State :=
  eventFlags n code (flagsOf code) seq details s

/-- An event that names no chamber, on the global ring. -/
def eventG (code : Nat) (details : List Nat) (s : State) : State :=
  raiseGeneric none code (flagsOf code) 0xFF 0 details s

/-- An event that names a chamber but that its chapter sends to the PF's ring. -/
def eventPf (ch code seq : Nat) (details : List Nat) (s : State) : State :=
  raiseGeneric none code (flagsOf code) ch seq details s

/-- An event of a scope: a chamber's ring or the global ring (R52). -/
def eventScope (sc : Scope) (code : Nat) (details : List Nat) (s : State) : State :=
  match sc with
  | .module => eventG code details s
  | .chamber n => event n.val code 0 details s

/-! ## Fault registers -/

/-- LAST_CODE in [31:16] of a status register: the first code stays (R409 and the chapters' tables). -/
def firstCode (code : Nat) (w : W32) : W32 := if fld w 31 16 = 0 then setFld w 31 16 code else w

/-- Whether a status register has no LAST_CODE yet. -/
def noCode (c : Chamber) (off : Nat) : Bool := fld (cget off c) 31 16 == 0

/-- OPS_STAT, OPS_FAULT_SEQ and OPS_FAULT_INFO of a job-fatal sequencer event (Table OPS-12). -/
def opsFault (code seq info : Nat) (c : Chamber) : Chamber :=
  let first := noCode c 0x904
  let c1 := cmod 0x904 (fun w => firstCode code (setBit w 13 true)) c
  if first then cset 0x90C (BitVec.ofNat 32 info) (cset 0x908 (BitVec.ofNat 32 seq) c1) else c1

/-- ENG_STAT.LAST_FAULT, ENG_FAULT_SEQ and ENG_FAULT_DET of the last event of Table ENG-8 (Table ENG-9). -/
def engFault (code seq det : Nat) (c : Chamber) : Chamber :=
  cset 0x408 (BitVec.ofNat 32 det) (cset 0x404 (BitVec.ofNat 32 seq) (cmod 0x400 (fun w => setFld w 31 16 code) c))

/-- PIP_STAT of an event 0x0C01 or 0x0C02 (Table PIP-4). -/
def pipFault (code : Nat) (c : Chamber) : Chamber := cmod 0xC18 (fun w => firstCode code (setBit w 0 true)) c

/-- OPT_STAT and OPT_FAULT_SEQ of a job-fatal event of class 0x0D (Table OPT-8). -/
def optFault (code seq : Nat) (c : Chamber) : Chamber :=
  let first := noCode c 0xE04
  let c1 := cmod 0xE04 (fun w => firstCode code (setBit w 3 true)) c
  if first then cset 0xE08 (BitVec.ofNat 32 seq) c1 else c1

/-- ECH_STAT and the echo fault registers (Table ECH-8); `b` is the status bit of the event. -/
def echFault (code seq addr b : Nat) (c : Chamber) : Chamber :=
  let first := noCode c 0x804
  let c1 := cmod 0x804 (fun w => firstCode code (setBit w b true)) c
  if first then csetPair 0x848 addr (cset 0x844 (BitVec.ofNat 32 seq) c1) else c1

/-- What an access fault reports (Table MEM-7, Table ECC-8); `walker` where the page walker read the word
(Table ECC-1). -/
structure MErr where
  code : Nat
  addr : Nat := 0
  space : Nat := 0
  write : Bool := false
  level : Nat := 7
  walker : Bool := false
  deriving DecidableEq, Repr

/-- MEM_STAT and the MEM_FAULT registers of codes 0x0901 to 0x0907; ECC_STAT.LAST_CODE of 0x0F02 and
0x0F0B; ECH registers of 0x0A01 (R189, R190, R334). -/
def memFault (e : MErr) (seq agent : Nat) (c : Chamber) : Chamber :=
  if e.code / 256 = 9 then
    let first := noCode c 0x704
    let c1 := cmod 0x704 (fun w => firstCode e.code (setBit w (if e.code = 0x907 then 2 else 1) true)) c
    if first then
      cset 0x724 (BitVec.ofNat 32
          (e.space + (if e.write then 4 else 0) + e.level * 8 + agent * 64))
        (csetPair 0x71C e.addr (cset 0x718 (BitVec.ofNat 32 seq) c1))
    else c1
  else if e.code / 256 = 0xF then cmod 0x1000 (firstCode e.code) c
  else if e.code / 256 = 0xA then echFault e.code seq e.addr 0 c
  else c

end Sys2Proof.Machine
end

