-- ==== Sys2Proof/Machine/Flow.lean ====
section
/-! DEFINITION. Flow.lean: flowstone (R57, Table STR-14). -/
namespace Sys2Proof.Machine
open Sys2Proof

/-- A flowstone word. -/
def flowAt (s : State) (i : Nat) : W32 := Tab.get 0 i s.flow

/-- Whether a flowstone word is WORN (R57). -/
def worn (s : State) (i : Nat) : Bool := decide (100000 ≤ Tab.get 0 i s.wear)

/-- A write that flowstone discards (R57). -/
def flowRefuse (s : State) : State := eventG 0x307 [] (gsetBit 0x600 1 s)

/-- An accepted write: the word, BUSY, the wear count, LAST_INDEX, and event 0x0306 at 100,000 (R57). -/
def flowAccept (i : Nat) (v : W32) (s : State) : State :=
  let s1 := gmod 0x600 (fun w => setFld w 29 16 i)
    { s with flow := Tab.set 0 i v s.flow, wear := Tab.set 0 i (Tab.get 0 i s.wear + 1) s.wear, flowBusy := true }
  ifdo (worn s1 i) (eventG 0x306 []) s1

/-- A flowstone write: accepted, or discarded while BUSY or WORN (R57). -/
def flowWrite (i : Nat) (v : W32) (s : State) : State :=
  if s.flowBusy || worn s i then flowRefuse s else flowAccept i v s

/-- Writes what waits, one word at a time; `fuel` bounds the words that flowstone refuses. -/
def flowPump : Nat → State → State
  | 0, s => s
  | fuel + 1, s =>
    match s.flowQueue with
    | [] => s
    | (i, v) :: q => if s.flowBusy then s else flowPump fuel (flowWrite i v { s with flowQueue := q })

/-- Gives the module's own writes to flowstone, each after the one before it has ended. -/
def flowEnqueue (ws : List (Nat × W32)) (s : State) : State :=
  let s1 := { s with flowQueue := s.flowQueue ++ ws }
  flowPump (s1.flowQueue.length + 1) s1

/-- FLOWSTONE_WRITE (R57). -/
def execFlowstoneWrite (index : BitVec 14) (v : W32) (s : State) : Host.Outcome State Fault Refusal :=
  .next (flowWrite index.toNat v s)

/-- FLOWSTONE_BUSY_END (R57): BUSY clears, and the next of the module's own writes starts. -/
def execFlowstoneBusyEnd (s : State) : Host.Outcome State Fault Refusal :=
  if s.flowBusy then .next (flowPump (s.flowQueue.length + 1) { s with flowBusy := false }) else .next s

end Sys2Proof.Machine
end

