-- ==== Sys2Proof/Machine/Aes.lean ====
section
/-! DEFINITION. Aes.lean: AES-256 (FIPS 197) and its XTS mode over one 64 B data unit (IEEE Std 1619), as R182
uses them for bulk code words. A block is 16 bytes; byte r + 4 c lies in row r and column c. -/
namespace Sys2Proof.Machine
open Sys2Proof

/-! ## GF(2^8) with the polynomial 0x11B -/

/-- Multiplication by x. -/
def aesDouble (b : W8) : W8 := (b <<< 1) ^^^ (if b.msb then 0x1B#8 else 0#8)

/-- The product of two field elements: bit `i` of `a` adds b x^i. -/
def aesMul (a b : W8) : W8 :=
  ((List.range 8).foldl (fun (r : W8 × W8) i => (if a.getLsbD i then r.1 ^^^ r.2 else r.1, aesDouble r.2)) (0, b)).1

/-- The inverse, 0 for 0: a^254. -/
def aesInv (a : W8) : W8 := ((List.range 7).foldl (fun (r : W8 × W8) _ =>
  let q := aesMul r.2 r.2
  (aesMul r.1 q, q)) (1, a)).1

/-! ## The cipher -/

/-- The substitution of a byte. -/
def aesSub (b : W8) : W8 :=
  (List.range 4).foldl (fun r i => r ^^^ (aesInv b).rotateLeft (i + 1)) (aesInv b ^^^ 0x63#8)

/-- The inverse substitution: the affine map undone, then the inverse. -/
def aesUnsub (b : W8) : W8 :=
  aesInv (b.rotateLeft 1 ^^^ b.rotateLeft 3 ^^^ b.rotateLeft 6 ^^^ 0x05#8)

/-- Moves row r by r·`k` columns to the left. -/
def aesShift (k : Nat) (x : Bytes) : Bytes :=
  (List.range 16).map (fun i => x.getD ((i + 4 * k * (i % 4)) % 16) 0)

/-- Multiplies each column by the circulant matrix whose first row is `m`. -/
def aesMix (m : List W8) (x : Bytes) : Bytes :=
  (List.range 16).map (fun i =>
    (List.range 4).foldl (fun r j => r ^^^ aesMul (m.getD j 0) (x.getD (i / 4 * 4 + (i + j) % 4) 0)) 0)

/-- Word `i` of the key schedule from the words before it, newest first. -/
def aesWord (i : Nat) (ws : List Bytes) : Bytes :=
  let t := ws.headD []
  let u := if i % 8 = 0 then
      xorBytes ((t.drop 1 ++ t.take 1).map aesSub) [(List.range (i / 8 - 1)).foldl (fun c _ => aesDouble c) 1, 0, 0, 0]
    else if i % 8 = 4 then t.map aesSub
    else t
  xorBytes (ws.getD 7 []) u

/-- The 15 round keys of a 256-bit key. -/
def aesKeys (key : Bytes) : List Bytes :=
  let first := ((List.range 8).map (fun i => slice key (4 * i) 4)).reverse
  let ws := ((List.range 52).foldl (fun w i => aesWord (i + 8) w :: w) first).reverse
  (List.range 15).map (fun r => ((ws.drop (4 * r)).take 4).flatten)

/-- AES-256 encryption of a block. -/
def aesEnc (key x : Bytes) : Bytes :=
  let ks := aesKeys key
  let y := (List.range 13).foldl (fun b i =>
    xorBytes (aesMix [2, 3, 1, 1] (aesShift 1 (b.map aesSub))) (ks.getD (i + 1) [])) (xorBytes x (ks.getD 0 []))
  xorBytes (aesShift 1 (y.map aesSub)) (ks.getD 14 [])

/-- AES-256 decryption of a block. -/
def aesDec (key x : Bytes) : Bytes :=
  let ks := aesKeys key
  let y := (aesShift 3 (xorBytes x (ks.getD 14 []))).map aesUnsub
  (List.range 13).foldl (fun b i =>
    (aesShift 3 (aesMix [14, 11, 13, 9] (xorBytes b (ks.getD (13 - i) [])))).map aesUnsub) y
    |> fun b => xorBytes b (ks.getD 0 [])

/-! ## XTS over one data unit -/

/-- The tweaks of the four blocks of data unit `u`: the unit number, encrypted under the second key, times α^j. -/
def xtsTweaks (key2 : Bytes) (u : Nat) : List Bytes :=
  let t := leNat (aesEnc key2 (natLe 16 u))
  (List.range 4).map (fun j => natLe 16 ((List.range j).foldl (fun v _ =>
    Nat.xor (v * 2 % 2 ^ 128) (if v / 2 ^ 127 = 1 then 0x87 else 0)) t))

/-- Passes the four blocks of a unit through a cipher, each between its tweak. -/
def xtsWith (f : Bytes → Bytes) (key2 : Bytes) (u : Nat) (x : Bytes) : Bytes :=
  ((xtsTweaks key2 u).zipIdx).flatMap (fun t => xorBytes (f (xorBytes (slice x (16 * t.2) 16) t.1)) t.1)

/-- The two keys of the key pair numbered `k`: its two draws (R58). -/
def keyPair (k : Nat) : Bytes × Bytes := (natLe 32 (Config.drbg (k - 1)).toNat, natLe 32 (Config.drbg k).toNat)

/-- The ciphertext of a unit under a key pair (R182). -/
def xtsEnc (keys : Bytes × Bytes) (u : Nat) (x : Bytes) : Bytes := xtsWith (aesEnc keys.1) keys.2 u x

/-- The decryption of a unit under a key pair (R182). -/
def xtsDec (keys : Bytes × Bytes) (u : Nat) (x : Bytes) : Bytes := xtsWith (aesDec keys.1) keys.2 u x

end Sys2Proof.Machine
end

