-- ==== Sys2Proof/Machine/GalCode.lean ====
section
/-! DEFINITION. GalCode.lean: the code of a gallery word (R308, R310). The check is linear: each data bit adds its
column (log entry 91). The columns are free among those that have the power of R308: every single error and every
error of two adjacent positions is told from every other, and no other error of two bits or of three adjacent
positions looks like one of them or like none. -/
namespace Sys2Proof.Machine
open Sys2Proof

/-- The columns of the 272 positions from those of the 256 data bits, 16 bits each in one number: check bit j
contributes itself. -/
def allColumns (data : List W16) : Nat :=
  ((data ++ (List.range 16).map (fun j => 1#16 <<< j)).foldr (fun c r => c.toNat + 65536 * r) 0)

/-- The column of a position. -/
def columnAt (cols p : Nat) : Nat := Nat.land (Nat.shiftRight cols (16 * p)) 65535

/-- The exclusive or of the columns at some positions. -/
def syndromeAt (cols : Nat) : List Nat → Nat
  | [] => 0
  | p :: l => Nat.xor (columnAt cols p) (syndromeAt cols l)

/-- The errors that the code corrects: one position, or two adjacent ones (R308). -/
def galFlips : List (Nat × Bool) :=
  (List.range 272).map (fun i => (i, false)) ++ (List.range 271).map (fun i => (i, true))

/-- The positions of a correctable error. -/
def flipAt (f : Nat × Bool) : List Nat := if f.2 then [f.1, f.1 + 1] else [f.1]

/-- The correctable syndromes as a set of bits, or none where one is 0 or two are equal. -/
def flipSet (cols : Nat) : Option Nat :=
  galFlips.foldl (fun (m : Option Nat) f =>
    let x := syndromeAt cols (flipAt f)
    match m with
    | some n => if x = 0 ∨ n.testBit x then none else some (n + 2 ^ x)
    | none => none) (some 0)

/-- Whether an error is told from none and from every correctable one. -/
def detected (cols set : Nat) (ps : List Nat) : Bool :=
  let x := syndromeAt cols ps
  x != 0 && !set.testBit x

/-- Whether columns have the power of R308. -/
def columnsOk (cols : Nat) : Bool :=
  match flipSet cols with
  | none => false
  | some set =>
    (List.range 270).all (fun i =>
      detected cols set [i, i + 1, i + 2] &&
      (List.range (270 - i)).all (fun k => detected cols set [i, i + 2 + k]))

/-- Columns that have the power, so that such columns exist: powers of x modulo x^16 + x^5 + x^3 + x + 1, falling. -/
def cyclicColumns : List W16 :=
  ((List.range 256).foldl (fun (r : List W16 × W16) _ =>
    let x := (r.2 >>> 1) ^^^ (if r.2.getLsbD 0 then 0xD400#16 else 0#16)
    (x :: r.1, x)) ([], 1#16)).1

/-- The columns of the module's code: free, within the power of R308. -/
def galColumns : Nat :=
  let c := allColumns ((List.range 256).map Config.galColumn)
  if columnsOk c then c else allColumns cyclicColumns

/-- The check of a gallery word. -/
def galCheck (d : BitVec 256) : W16 :=
  BitVec.ofNat 16 (syndromeAt galColumns ((List.range 256).filter d.getLsbD))

/-- What decoding a stored gallery word gives (R308). -/
inductive GalDec where
  | clean
  | corrected (pos : Nat) (pair : Bool) (data : BitVec 256)
  | bad
  deriving DecidableEq, Repr

/-- The 272-bit pattern of an error. -/
def flipMask (f : Nat × Bool) : BitVec 272 := ((flipAt f).foldl (fun m p => m ||| (1#272 <<< p)) 0#272)

/-- Decodes stored data and the difference of its stored check from the check of the data (R308): that difference
is the syndrome; a correctable error has it as its own, any other is uncorrectable. -/
def galDecode (d : BitVec 256) (err : W16) : GalDec :=
  if err = 0 then .clean
  else
    match galFlips.find? (fun f => syndromeAt galColumns (flipAt f) == err.toNat) with
    | some f => .corrected f.1 f.2 (d ^^^ (flipMask f).extractLsb' 0 256)
    | none => .bad

end Sys2Proof.Machine
end

