-- ==== Sys2Proof/Machine/Memory.lean ====
section
/-! DEFINITION. Memory.lean: core store, gallery and bulk memory (07_memory_system.md) with their
correction (R308 to R314), the page walk (R180) and encryption keys (R182, R183). -/
namespace Sys2Proof.Machine
open Sys2Proof

/-- What an access gives: a value or a fault, and the state after it. -/
abbrev Res (α : Type) := Except MErr α × State

/-- Goes on with `f` unless the access has faulted. -/
def andThen {α β : Type} (r : Res α) (f : α → State → Res β) : Res β :=
  match r with
  | (.ok a, s) => f a s
  | (.error e, s) => (.error e, s)

/-- Runs an access for each element of a list until one faults. -/
def eachRes {α : Type} (f : α → State → Res Unit) : List α → State → Res Unit
  | [], s => (.ok (), s)
  | a :: l, s => andThen (f a s) (fun _ t => eachRes f l t)

/-- Joins what an access gives for each element of a list. -/
def joinRes {α : Type} (f : α → State → Res Bytes) : List α → State → Res Bytes
  | [], s => (.ok [], s)
  | a :: l, s => andThen (f a s) (fun b t => andThen (joinRes f l t) (fun bs u => (.ok (b ++ bs), u)))

/-! ## Who reads and writes -/

/-- An agent of memory accesses: its number in ECC_LAST_INFO (Table ECC-8), and the core it acts for; without one it
stands on the leader's die. -/
structure Agent where
  code : Nat
  core : Option Nat := none
  deriving DecidableEq, Repr

/-- An agent that acts for no core. -/
def agent (code : Nat) : Agent := { code := code }

/-- The die of an agent of a chamber. -/
def agentDie (c : Chamber) (a : Agent) : Nat :=
  match a.core with
  | some k => dieOfCore k
  | none => leaderDie c

/-- Counts bytes that cross the stack bridge (Table OBS-2). -/
def countBridge (from_ to_ k : Nat) (s : State) : State :=
  if from_ = to_ then s else bump (64 + from_) 9 k (bump (64 + to_) 10 k s)

/-- Counts bytes that a slice's shaft moves for an agent and, where the agent is not the slice's own core, the fabric
of the dies they pass (Table OBS-2, log entry 92). -/
def countShaft (n : Nat) (a : Agent) (core : Nat) (wr : Bool) (k : Nat) (s : State) : State :=
  let s1 := bump (core / 16) (if wr then 10 else 9) k s
  if a.core = some core then s1
  else
    let there := dieOfCore core
    let here := agentDie (chOf s n) a
    let s2 := bump (64 + there) 8 k s1
    if there = here then s2
    else bump (64 + here) 8 k (if wr then countBridge here there k s2 else countBridge there here k s2)

/-! ## Core store (R167 to R172) -/

/-- Key of a core-store byte. The accumulator tile lies at 0, the staging region at 0x2_0000 and the
thread region at 0x3_0000 (log entry 6). -/
def coreKey (core off : Nat) : Nat := core * 0x40000 + off

/-- Reads core-store bytes. -/
def coreRead (core off n : Nat) (s : State) : Bytes := memRead s.core (coreKey core off) n

/-- Whether a core-store byte of a range fails parity (R172). -/
def coreBadIn (core off n : Nat) (s : State) : Bool :=
  (List.range n).any (fun i => Tab.get false (coreKey core off + i) s.coreBad)

/-- Writes core-store bytes; every write sets good parity (R172). -/
def coreWrite (core off : Nat) (bs : Bytes) (s : State) : State :=
  { s with core := memWrite s.core (coreKey core off) bs,
           coreBad := setRange false false (coreKey core off) bs.length s.coreBad }

/-- Accumulator entry j of lane l of a core's tile (R98, Table MEM-2). -/
def accGet (core l j : Nat) (s : State) : W32 := BitVec.ofNat 32 (leNat (coreRead core ((l * 256 + j) * 4) 4 s))

/-- Sets an accumulator entry. -/
def accSet (core l j : Nat) (v : W32) (s : State) : State := coreWrite core ((l * 256 + j) * 4) (natLe 4 v.toNat) s

/-! ## Counting of corrected and uncorrectable words (R312, R313) -/

/-- Where a word lies for the count: the chamber that holds it, and its address in the space of
ECC_LAST_INFO; `none` outside every chamber. -/
structure EccLoc where
  ch : Option Nat
  space : Nat
  addr : Nat
  deriving DecidableEq, Repr

/-- One correction for a hold-back window: the window after it, and the number that an event raised now
carries (R312, R314). -/
def holdBack (h : HoldBack) (t : W64) : HoldBack × Option Nat :=
  match h.last with
  | some l =>
    if t.toNat < l.toNat + 1000000 then ({ h with held := h.held + 1 }, none)
    else ({ last := some t, held := 0 }, some (h.held + 1))
  | none => ({ last := some t, held := 0 }, some (h.held + 1))

/-- ECC_LAST_ADDR and ECC_LAST_INFO (Table ECC-8). -/
def eccLast (l : EccLoc) (ue : Bool) (pos : Nat) (pair : Bool) (a : Agent) (c : Chamber) : Chamber :=
  cset 0x1018 (BitVec.ofNat 32 (l.space + (if ue then 4 else 0) + pos * 8 +
      (if pair then 0x1000 else 0) + a.code * 0x2000))
    (csetPair 0x1010 l.addr c)

/-- A corrected word (R312); agent 5 is the sweep, which raises nothing (R317). -/
def eccCorrected (l : EccLoc) (pos : Nat) (pair : Bool) (a : Agent) (s : State) : State :=
  match l.ch with
  | some n =>
    let c := chOf s n
    let c1 := eccLast l false pos pair a (cmod 0x1000 (fun w => setBit w 0 true) (caddPair 0x1004 1 c))
    if a.code = 5 then setCh n c1 s
    else
      let h := holdBack c.ecc s.time
      let s1 := setCh n { c1 with ecc := h.1 } s
      match h.2 with
      | some k => event n 0x0F01 0 [k] s1
      | none => s1
  | none =>
    let s1 := gcount 0x2014 1 s
    if a.code = 5 then s1
    else
      let h := holdBack s.nochEcc s.time
      let s2 := { s1 with nochEcc := h.1 }
      match h.2 with
      | some k => eventG 0x0F01 [k] s2
      | none => s2

/-- An uncorrectable word found by a read (R313). -/
def eccUncorrectable (l : EccLoc) (a : Agent) (s : State) : State :=
  match l.ch with
  | some n =>
    modCh n (fun c => eccLast l true 0x1FF false a
      (cmod 0x1000 (fun w => setBit w 1 true) (ccount 0x100C 1 c))) s
  | none => gcount 0x2018 1 s

/-! ## Gallery (R173 to R176) -/

/-- The layer, and the offset in the layer's 8 MiB region, of a slice offset (R173 step 4). -/
def layerOf (off : Nat) : Nat × Nat := (off / 4096 % 2, off / 8192 * 4096 + off % 4096)

/-- Where a gallery word lies for the count (R312): window address or echo-slice offset. -/
def galEccLoc (s : State) (core off : Nat) : EccLoc :=
  match chOfCluster s (core / 16) with
  | none => ⟨none, 0, 0⟩
  | some n =>
    let before := (chCores (chOf s n)).takeWhile (fun k => k < core)
    if off < sliceWin s core then ⟨some n, 0, (before.map (sliceWin s)).sum + off⟩
    else ⟨some n, 2, (before.map (fun k => echoPart s (dieOfCore k))).sum + (off - sliceWin s core)⟩

/-- The 32 stored bytes of a gallery word. -/
def galStored (core off : Nat) (s : State) : Bytes := memRead s.gal (galKey core off) 32

/-- Reads one whole gallery word for an agent (R174, R308, R311): zeros while its valid bit is 0;
corrected data written back; `none` for an uncorrectable word. -/
def galWord (a : Agent) (core off : Nat) (s : State) : Option Bytes × State :=
  let w := galKey core off / 32
  if !Tab.get false w s.galValid then (some (List.replicate 32 0), s)
  else
    let d := BitVec.ofNat 256 (leNat (galStored core off s))
    match galDecode d (Tab.get 0 w s.galErr) with
    | .clean => (some (galStored core off s), s)
    | .corrected pos pair v =>
      let bs := natLe 32 v.toNat
      (some bs, eccCorrected (galEccLoc s core off) pos pair a (galPut core off bs s))
    | .bad => (none, eccUncorrectable (galEccLoc s core off) a s)

/-- Aligned granules of `g` bytes that a range touches. -/
def granules (g a n : Nat) : List Nat :=
  if n = 0 then [] else (List.range ((a + n - 1) / g - a / g + 1)).map (fun i => (a / g + i) * g)

/-- Bytes of the granule at `g`, of size `size`, that lie in a range. -/
def common (size g a n : Nat) : Nat := min (a + n) (g + size) - max a g

/-- Loads from a chamber's gallery window (R173): 0x0902 beyond it, 0x0F02 for an uncorrectable word. -/
def galLoad (n : Nat) (a : Agent) (w len : Nat) (s : State) : Res Bytes :=
  let c := chOf s n
  if winSize s c < w + len then (.error { code := 0x902, addr := w, space := 1 }, s)
  else
    let r := joinRes (fun (g : Nat) t =>
      match winLoc t c g with
      | none => (.error { code := 0x902, addr := g, space := 1 }, t)
      | some (core, off) =>
        match galWord a core off (countShaft n a core false (common 32 g w len) t) with
        | (some bs, u) => (.ok bs, u)
        | (none, u) => (.error { code := 0xF02, addr := max w g, space := 1 }, u)) (granules 32 w len) s
    andThen r (fun bs t => (.ok (slice bs (w % 32) len), bumpCh n 6 len t))

/-- Stores whole code words into a chamber's gallery window (R185). -/
def galStore (n : Nat) (a : Agent) (w : Nat) (bs : Bytes) (s : State) : Res Unit :=
  let c := chOf s n
  if winSize s c < w + bs.length then (.error { code := 0x902, addr := w, space := 1, write := true }, s)
  else if w % 32 ≠ 0 ∨ bs.length % 32 ≠ 0 then (.error { code := 0x903, addr := w, space := 1, write := true }, s)
  else
    let r := eachRes (fun (g : Nat) t =>
      match winLoc t c g with
      | none => (.error { code := 0x902, addr := g, space := 1, write := true }, t)
      | some (core, off) => (.ok (), galPut core off (slice bs (g - w) 32) (countShaft n a core true 32 t)))
      (granules 32 w bs.length) s
    andThen r (fun _ t => (.ok (), bumpCh n 7 bs.length t))

/-- One step of the slice controller on bytes within one code word of the window (R114, R176): it reads the whole
word, and writes it back with what `f` makes of the `len` bytes at `w`. -/
def galChange (n : Nat) (a : Agent) (w len : Nat) (f : Bytes → Bytes) (s : State) : Res Bytes :=
  let c := chOf s n
  if winSize s c < w + len then (.error { code := 0x902, addr := w, space := 1, write := true }, s)
  else
    match winLoc s c (w / 32 * 32) with
    | none => (.error { code := 0x902, addr := w, space := 1, write := true }, s)
    | some (core, off) =>
      match galWord a core off (countShaft n a core true len (countShaft n a core false len s)) with
      | (some word, t) =>
        let old := slice word (w % 32) len
        (.ok old, bumpCh n 7 len (bumpCh n 6 len (galPut core off (splice word (w % 32) (f old)) t)))
      | (none, t) => (.error { code := 0xF02, addr := w, space := 1, write := true }, t)

/-! ## Bulk memory (R177 to R183) -/

/-- Usable bulk bytes: 480 GiB (R177). -/
def bulkSize : Nat := 480 * 2 ^ 30

/-- The LPDDR5X channel of a bulk address (R177). -/
def channelOf (p : Nat) : Nat :=
  if p < 240 * 2 ^ 30 then p / 1920 % 32 else 32 + (p - 240 * 2 ^ 30) / 1920 % 32

/-- The segment row and slot of a bulk address (R177). -/
def segmentOf (p : Nat) : Nat × Nat :=
  let pd := if p < 240 * 2 ^ 30 then p else p - 240 * 2 ^ 30
  (pd / 1920 / 32, pd % 1920 / 64)

/-- Whether a chamber's bulk ranges hold the `n` bytes at `a` (R36, R179). -/
def inRanges (c : Chamber) (a n : Nat) : Bool :=
  c.ranges.any (fun r => decide (r.1 * 2 ^ 30 ≤ a ∧ a + n ≤ (r.1 + r.2) * 2 ^ 30))

/-- The chamber whose range holds a bulk address. -/
def bulkOwner (s : State) (p : Nat) : Option Nat :=
  allCh.find? (fun n => defined s n && inRanges (chOf s n) p 1)

/-- The key pair under which a chamber's unit lies (R183). -/
def keyAt (c : Chamber) (p : Nat) : Nat :=
  if c.oldKey ≠ 0 ∧ c.rotPtr ≤ p then c.oldKey else c.key

/-- Offset of a bulk address into a chamber's ranges, concatenated in MEMORY-section order (Table ECC-3). -/
def rangeOffset : List (Nat × Nat) → Nat → Nat
  | [], p => p
  | r :: l, p =>
    if r.1 * 2 ^ 30 ≤ p ∧ p < (r.1 + r.2) * 2 ^ 30 then p - r.1 * 2 ^ 30 else r.2 * 2 ^ 30 + rangeOffset l p

/-- The bulk address of an offset into a chamber's ranges. -/
def rangeAddr : List (Nat × Nat) → Nat → Nat
  | [], o => o
  | r :: l, o => if o < r.2 * 2 ^ 30 then r.1 * 2 ^ 30 + o else rangeAddr l (o - r.2 * 2 ^ 30)

/-- Where a bulk word lies for the count. -/
def bulkEccLoc (s : State) (p : Nat) : EccLoc :=
  match bulkOwner s p with
  | some n => ⟨some n, 1, rangeOffset (chOf s n).ranges p⟩
  | none => ⟨none, 0, 0⟩

/-- What the cells of a unit hold: the ciphertext of what was last written under its key pair, or, never written,
what they held at power-on (R178, R182; log entry 4). -/
def unitCells (s : State) (p : Nat) : Bytes :=
  let k := Tab.get 0 (p / 64) s.bulkKey
  if k = 0 then (List.range 64).map (fun i => Config.bulkCell (p / 64 * 64 + i))
  else xtsEnc (keyPair k) (p / 64) (memRead s.bulk (p / 64 * 64) 64)

/-- The 64 bytes of a unit under key pair `k` (R182): the decryption of its cells. Under the key pair it was written
with, that is what was written: State keeps the plaintext. -/
def bulkUnit (s : State) (k p : Nat) : Bytes :=
  if Tab.get 0 (p / 64) s.bulkKey = k then memRead s.bulk (p / 64 * 64) 64
  else xtsDec (keyPair k) (p / 64) (unitCells s p)

/-- A bulk byte under key pair `k`. -/
def bulkByte (s : State) (k p : Nat) : W8 := (bulkUnit s k p).getD (p % 64) 0

/-- The memory controller's decode of a unit (R309, R311, R312): corrected and written back, or
uncorrectable. The stored error is 0 for none, b + 1 for byte b alone, and 69 or more otherwise. -/
def bulkCheck (a : Agent) (p : Nat) (s : State) : Bool × State :=
  let e := Tab.get 0 (p / 64) s.bulkErr
  if e = 0 then (true, s)
  else if e ≤ 68 then
    (true, bump (68 + channelOf p) 6 1 (eccCorrected (bulkEccLoc s p) (e - 1) false a
      { s with bulkErr := Tab.set 0 (p / 64) 0 s.bulkErr }))
  else (false, bump (68 + channelOf p) 7 1 (eccUncorrectable (bulkEccLoc s p) a s))

/-- Counts a unit read (0) or written (1) at its channel, with its pass through the cipher
(Table OBS-2). -/
def bumpMem (p i : Nat) (s : State) : State := bump (68 + channelOf p) 11 1 (bump (68 + channelOf p) i 64 s)

/-- Writes a whole unit under key pair `k` (R182, R311). -/
def bulkPut (k p : Nat) (bs : Bytes) (s : State) : State :=
  bumpMem p 1 { s with bulk := memWrite s.bulk p bs, bulkKey := Tab.set 0 (p / 64) k s.bulkKey,
                       bulkErr := Tab.set 0 (p / 64) 0 s.bulkErr }

/-- The die of a bulk address (R177). -/
def dieOfBulk (p : Nat) : Nat := channelOf p / 32

/-- Reads one whole unit of a chamber at a physical address, for an access at virtual address `va`. -/
def physLoad (n : Nat) (a : Agent) (va p : Nat) (s : State) : Res Bytes :=
  let c := chOf s n
  match bulkCheck a p (countBridge (dieOfBulk p) (agentDie c a) 64 s) with
  | (true, t) => (.ok (bulkUnit t (keyAt c p) p), bumpMem p 0 t)
  | (false, t) => (.error { code := 0xF02, addr := va, space := 2 }, t)

/-- Writes one whole unit of a chamber at a physical address. -/
def physStore (n : Nat) (a : Agent) (p : Nat) (bs : Bytes) (s : State) : State :=
  let c := chOf s n
  bulkPut (keyAt c p) p bs (countBridge (agentDie c a) (dieOfBulk p) 64 s)

/-- VA index shift of a level (R179). -/
def walkShift (lvl : Nat) : Nat := [39, 30, 21, 16].getD lvl 16

/-- VA index bits of a level. -/
def walkBits (lvl : Nat) : Nat := [9, 9, 9, 5].getD lvl 5

/-- Reads a page-table entry from memory, and caches it if it is valid (R181). An uncorrectable word is the page
walker's (Table ECC-1). -/
def loadEntry (n : Nat) (a : Agent) (va ea : Nat) (s : State) : Res Nat :=
  let s1 := bump (68 + channelOf ea) 8 64 (bump (64 + agentDie (chOf s n) a) 6 1 s)
  match physLoad n a va (ea / 64 * 64) s1 with
  | (.error e, t) => (.error { e with walker := true }, t)
  | (.ok bs, t) =>
    let e := at_ bs (ea % 64) 8
    (.ok e, if e % 2 = 0 then t else modCh n (fun c => { c with tlb := Tab.set none ea (some (BitVec.ofNat 64 e)) c.tlb }) t)

/-- The page-table entry at a physical address, through the translation cache (R181): a cached entry that memory no
longer holds is used or read afresh, and which is free (log entry 93). -/
def walkEntry (n : Nat) (a : Agent) (va ea : Nat) (s : State) : Res Nat :=
  let c := chOf s n
  match Tab.get none ea c.tlb with
  | some e =>
    let f := fresh s
    if at_ (bulkUnit s (keyAt c ea) (ea / 64 * 64)) (ea % 64) 8 = e.toNat then (.ok e.toNat, s)
    else if f.1.getLsbD 0 then (.ok e.toNat, f.2)
    else loadEntry n a va ea f.2
  | none => loadEntry n a va ea s

/-- The page walk of R180 from level `lvl` at table `t`; `fuel` levels are left. -/
def walk (n : Nat) (a : Agent) (va : Nat) (isWrite isExec : Bool) : Nat → Nat → Nat → State → Res Nat
  | 0, _, _, s => (.error { code := 0x906, addr := va, space := 2, write := isWrite, level := 3 }, s)
  | fuel + 1, lvl, t, s =>
    let bad := fun (code : Nat) (u : State) =>
      ((.error { code := code, addr := va, space := 2, write := isWrite, level := lvl } : Except MErr Nat), u)
    andThen (walkEntry n a va (t + va / 2 ^ walkShift lvl % 2 ^ walkBits lvl * 8) s) (fun e u =>
      let c := chOf u n
      let next := e / 256 % 2 ^ 31 * 256
      if e % 2 = 0 then bad 0x904 u
      else if e / 16 % 16 ≠ 0 ∨ e / 2 ^ 39 ≠ 0 then bad 0x906 u
      else if e / 2 % 2 = 1 then
        let size := if lvl = 2 then 0x200000 else 0x10000
        if lvl < 2 then bad 0x906 u
        else if next % size ≠ 0 ∨ !inRanges c next size then bad 0x906 u
        else if (isWrite ∧ e / 4 % 2 = 0) ∨ (isExec ∧ e / 8 % 2 = 0) then bad 0x905 u
        else (.ok (next + va % size), u)
      else if lvl = 3 then bad 0x906 u
      else
        let align := if lvl = 2 then 256 else 4096
        if next % align ≠ 0 ∨ !inRanges c next align then bad 0x906 u
        else walk n a va isWrite isExec fuel (lvl + 1) next u)

/-- Walk reads of a die (Table OBS-2). -/
def walkReads (die : Nat) (s : State) : W64 := Tab.get 0 (16 * (64 + die) + 6) s.banks

/-- Translates a chamber virtual address (R180) under the page-table base in force (R181). A translation that read no
entry from memory is a hit of the translation cache, any other a page walk (Table OBS-2). -/
def translate (n : Nat) (a : Agent) (va : Nat) (isWrite isExec : Bool) (s : State) : Res Nat :=
  if va / 2 ^ 48 ≠ 0 then (.error { code := 0x904, addr := va, space := 2, write := isWrite }, s)
  else
    let c := chOf s n
    let die := agentDie c a
    if !inRanges c c.ptbase 4096 then
      (.error { code := 0x906, addr := va, space := 2, write := isWrite, level := 0 }, s)
    else
      let r := walk n a va isWrite isExec 4 0 c.ptbase s
      (r.1, bump (64 + die) (if walkReads die r.2 = walkReads die s then 7 else 5) 1 r.2)

/-- Loads from a chamber's bulk memory. -/
def bulkLoad (n : Nat) (a : Agent) (va len : Nat) (exec : Bool) (s : State) : Res Bytes :=
  let r := joinRes (fun (g : Nat) t =>
    andThen (translate n a (max va g) false exec t) (fun p u =>
      physLoad n a (max va g) (p / 64 * 64) u)) (granules 64 va len) s
  andThen r (fun bs t => (.ok (slice bs (va % 64) len), bumpCh n 8 len t))

/-- Stores whole code words into a chamber's bulk memory (R185). -/
def bulkStore (n : Nat) (a : Agent) (va : Nat) (bs : Bytes) (s : State) : Res Unit :=
  if va % 64 ≠ 0 ∨ bs.length % 64 ≠ 0 then
    (.error { code := 0x903, addr := va, space := 2, write := true }, s)
  else
    let r := eachRes (fun (g : Nat) t =>
      andThen (translate n a g true false t) (fun p u =>
        (.ok (), physStore n a p (slice bs (g - va) 64) u))) (granules 64 va bs.length) s
    andThen r (fun _ t => (.ok (), bumpCh n 9 bs.length t))

/-- One step of the memory controller on bytes within one code word of bulk memory (R114, R155). -/
def bulkChange (n : Nat) (a : Agent) (va len : Nat) (f : Bytes → Bytes) (s : State) : Res Bytes :=
  andThen (translate n a va true false s) (fun q t =>
    let p := q / 64 * 64
    match physLoad n a va p t with
    | (.error e, u) => (.error { e with write := true }, u)
    | (.ok word, u) =>
      let old := slice word (va % 64) len
      (.ok old, bumpCh n 9 len (bumpCh n 8 len (physStore n a p (splice word (va % 64) (f old)) u))))

/-! ## By descriptor space (Table MEM-1) -/

/-- Code word of a descriptor space: 32 B gallery, 64 B bulk (R185). -/
def wordOf (space : Nat) : Nat := if space = 0 then 32 else 64

/-- Loads by descriptor space: 0 gallery window, 1 bulk. -/
def dLoad (n : Nat) (a : Agent) (space addr len : Nat) (s : State) : Res Bytes :=
  if space = 0 then galLoad n a addr len s else bulkLoad n a addr len false s

/-- Stores whole code words by descriptor space. -/
def dStore (n : Nat) (a : Agent) (space addr : Nat) (bs : Bytes) (s : State) : Res Unit :=
  if space = 0 then galStore n a addr bs s else bulkStore n a addr bs s

/-- Merges bytes within code words by descriptor space (R114: the scale-array merge). -/
def dMerge (n : Nat) (a : Agent) (space addr : Nat) (bs : Bytes) (s : State) : Res Unit :=
  eachRes (fun (g : Nat) t =>
    let lo := max addr g
    let part := slice bs (lo - addr) (min (addr + bs.length) (g + wordOf space) - lo)
    let r := if space = 0 then galChange n a lo part.length (fun _ => part) t
      else bulkChange n a lo part.length (fun _ => part) t
    andThen r (fun _ u => (.ok (), u)))
    (granules (wordOf space) addr bs.length) s

end Sys2Proof.Machine
end

