-- ==== Sys2Proof/Machine/Window.lean ====
section
/-! DEFINITION. Window.lean: the bulk window BAR2 (R183, R184, R373): reads, writes through merge buffers, and the
accesses that wait for a rotation. -/
namespace Sys2Proof.Machine
open Sys2Proof

/-- Whether memory requests of the host are served: from Ready until the rails go down, and not during a warm
reset (R390, R391). -/
def hostUp (s : State) : Bool :=
  !s.pcie.warm && (match s.power.phase with
    | .ready => true
    | .pd k => decide (k ≤ 3)
    | _ => false)

/-- Whether a write of the host is ignored: after a module-fatal fault (R333). -/
def hostFrozen (s : State) : Bool := bit (gget 0x2000 s) 0

/-- The bulk address of a BAR2 offset (R184). -/
def windowAddr (s : State) (off : Nat) : Nat := fld (gget 0xD00 s) 8 0 * 2 ^ 30 + off

/-- Whether a bulk address lies in a chamber's range. -/
def mapped (s : State) (p : Nat) : Bool := decide (p < bulkSize) && (bulkOwner s p).isSome

/-- Whether an access to a unit waits for the rotation of its chamber (R183). -/
def unitStalled (s : State) (p : Nat) : Bool :=
  match bulkOwner s p with
  | some n => (chOf s n).st == .rotating && decide ((chOf s n).rotPtr ≤ p)
  | none => false

/-- Adds to a 16-bit field of MEM_BAR2_STAT, saturating (Table MEM-8). -/
def windowCount (hi lo k : Nat) (s : State) : State :=
  gmod 0xD04 (fun w => setFld w hi lo (min 0xFFFF (fld w hi lo + k))) s

/-- A unit's merge buffer is gone: no held register write waits for it (R217). -/
def unitGone (u : Nat) (s : State) : State :=
  { s with heldWrites := s.heldWrites.map (fun h => { h with units := h.units.filter (· != u) }) }

/-- An incomplete unit is discarded: PARTIAL and event 0x0908 with its P and 0 (R184). -/
def discardUnit (u : Nat) (s : State) : State :=
  eventG 0x908 [64 * u, 0] (windowCount 15 0 1 (unitGone u { s with merge := s.merge.filter (fun m => m.unit != u) }))

/-- Whether all 64 bytes of a buffer have arrived. -/
def unitFull (m : Merge) : Bool := m.bytes.all (·.isSome)

/-- A complete unit goes to memory under its chamber's keys; one whose chamber is gone is dropped. -/
def flushUnit (m : Merge) (s : State) : State :=
  let p := 64 * m.unit
  let s1 := unitGone m.unit { s with merge := s.merge.filter (fun q => q.unit != m.unit) }
  match bulkOwner s1 p with
  | some n => bump (68 + channelOf p) 10 64 (physStore n (agent 6) p (m.bytes.map (·.getD 0)) s1)
  | none => s1

/-- Writes the complete units that no rotation holds. -/
def flushWindow (s : State) : State :=
  forAll (s.merge.filter (fun m => unitFull m && !unitStalled s (64 * m.unit))) flushUnit s

/-- Frees a merge buffer where all 64 are in use: the oldest incomplete one is evicted. -/
def evictUnit (s : State) : State :=
  if s.merge.length < 64 then s
  else
    match (s.merge.filter (fun m => !unitFull m)).foldl (fun (best : Option Merge) m => match best with
        | none => some m
        | some b => if m.first.toNat < b.first.toNat then some m else some b) none with
    | some m => discardUnit m.unit s
    | none => s

/-- A buffer with the bytes of a write put in, from offset `o` in the unit. -/
def putUnitBytes (m : Merge) (o : Nat) (bs : Bytes) : Merge :=
  { m with bytes := m.bytes.take o ++ bs.map some ++ m.bytes.drop (o + bs.length) }

/-- The bytes of a write that fall in unit `u` enter its merge buffer. -/
def fillUnit (a : Nat) (data : Bytes) (u : Nat) (s : State) : State :=
  let lo := max a (64 * u)
  let hi := min (a + data.length) (64 * u + 64)
  let part := slice data (lo - a) (hi - lo)
  if s.merge.any (fun m => m.unit == u) then
    { s with merge := s.merge.map (fun m => if m.unit = u then putUnitBytes m (lo - 64 * u) part else m) }
  else
    let s1 := evictUnit s
    let m : Merge := { unit := u, bytes := List.replicate 64 none, first := s.time }
    { s1 with merge := s1.merge ++ [putUnitBytes m (lo - 64 * u) part] }

/-- Whether an access waits for a rotation (R183). -/
def barStalled (s : State) (a len : Nat) : Bool := (granules 64 a len).any (unitStalled s)

/-- A write that no rotation holds: its mapped units enter merge buffers, the others are counted and reported. -/
def windowWrite (a : Nat) (data : Bytes) (s : State) : State :=
  let units := (granules 64 a data.length).map (· / 64)
  let lost := units.filter (fun u => !mapped s (64 * u))
  let s1 := forAll (units.filter (fun u => mapped s (64 * u))) (fillUnit a data) s
  let s2 := flushWindow s1
  if lost = [] then s2 else eventG 0x908 [a, lost.length] (windowCount 31 16 lost.length s2)

/-- Whether a BAR2 access lies within the size in force (R373). -/
def inWindow (s : State) (off len : Nat) : Bool := decide (off + len ≤ 2 ^ s.pcie.bar2Log)

/-- BAR2_WRITE (R184, R373): a write that touches a stalled unit waits (R183). -/
def execBar2Write (off : BitVec 36) (data : Bytes) (s : State) : Host.Outcome State Fault Refusal :=
  if !hostUp s ∨ hostFrozen s ∨ !inWindow s off.toNat data.length then .next s
  else
    let a := windowAddr s off.toNat
    if barStalled s a data.length then
      .next { s with bar2Wait := s.bar2Wait ++ [{ addr := a, len := data.length, data := some data }] }
    else .next (windowWrite a data s)

/-- MERGE_BUFFER_TIMEOUT (R184). -/
def execMergeBufferTimeout (unit : BitVec 33) (s : State) : Host.Outcome State Fault Refusal :=
  match s.merge.find? (fun m => m.unit == unit.toNat) with
  | some m =>
    if !unitFull m ∧ m.first.toNat + 10000 ≤ now s then .next (discardUnit unit.toNat s) else .next s
  | none => .next s

/-- The bytes that a read finds in one unit, and whether the unit is uncorrectable (R184, Table ECC-1). -/
def windowUnit (p : Nat) (s : State) : (Bytes × Bool) × State :=
  if !mapped s p then ((List.replicate 64 0, false), s)
  else
    match bulkOwner s p with
    | none => ((List.replicate 64 0, false), s)
    | some n =>
      let r := bulkCheck (agent 6) p s
      let s1 := bump (68 + channelOf p) 10 64 (bumpMem p 0 r.2)
      let bs := bulkUnit s1 (keyAt (chOf s1 n) p) p
      if r.1 then ((bs, false), s1) else ((bs, true), eventPf n 0xF03 0 [] s1)

/-- Reads the units of a request in ascending address. -/
def windowUnits : List Nat → State → (Bytes × Bool) × State
  | [], s => (([], false), s)
  | p :: l, s =>
    let r := windowUnit p s
    let q := windowUnits l r.2
    ((r.1.1 ++ q.1.1, r.1.2 || q.1.2), q.2)

/-- Serves a read: a completion with the data, poisoned where a unit is uncorrectable. -/
def windowRead (a len : Nat) (s : State) : State :=
  let r := windowUnits (granules 64 a len) s
  emit (.cpl 0 (slice r.1.1 (a % 64) len) r.1.2) r.2

/-- BAR2_READ (R184, R373): a read beyond the BAR2 size is answered as an unclaimed request. -/
def execBar2Read (off : BitVec 36) (len : BitVec 13) (s : State) : Host.Outcome State Fault Refusal :=
  let a := windowAddr s off.toNat
  if !hostUp s ∨ !inWindow s off.toNat len.toNat then .next (emit (.cplUr 0) s)
  else if barStalled s a len.toNat then .next { s with bar2Wait := s.bar2Wait ++ [{ addr := a, len := len.toNat }] }
  else .next (windowRead a len.toNat s)

/-- The accesses that waited for a rotation and no longer do, in the order of their arrival (R183). After a
module-fatal fault, which stops the rotation where it stands (R60), waiting reads are served and waiting writes are
ignored like every write (R333; log entry 94). -/
def resumeWindow (s : State) : State :=
  let s1 := flushWindow s
  let ready := s1.bar2Wait.filter (fun r => !barStalled s1 r.addr r.len)
  forAll ready (fun r t =>
    match r.data with
    | some data => if hostFrozen t then t else windowWrite r.addr data t
    | none => windowRead r.addr r.len t)
    { s1 with bar2Wait := s1.bar2Wait.filter (fun r => barStalled s1 r.addr r.len) }

end Sys2Proof.Machine
end

