-- ==== Sys2Proof/Machine/Ecc.lean ====
section
/-! DEFINITION. Ecc.lean: correction reports (R312, R314), sweeps (R315 to R320), raw access (R322, R323), the
bond repair map (R325), cluster tests (R328, R329) and module-fatal faults (R333). -/
namespace Sys2Proof.Machine
open Sys2Proof

/-! ## Sweeps (R315 to R320) -/

/-- A register of a sweep block (Table ECC-10). -/
def swpGet (s : State) (sc : Scope) (off : Nat) : W32 :=
  match sc with
  | .module => gget (0x2100 + off) s
  | .chamber n => creg s n.val (0x1080 + off)

/-- Sets a register of a sweep block. -/
def swpSet (sc : Scope) (off : Nat) (v : W32) (s : State) : State :=
  match sc with
  | .module => gset (0x2100 + off) v s
  | .chamber n => setCreg n.val (0x1080 + off) v s

/-- A pair of a sweep block. -/
def swpPair (s : State) (sc : Scope) (off : Nat) : Nat :=
  (swpGet s sc off).toNat + 2 ^ 32 * (swpGet s sc (off + 4)).toNat

/-- Sets a pair of a sweep block. -/
def swpSetPair (sc : Scope) (off v : Nat) (s : State) : State :=
  swpSet sc (off + 4) (BitVec.ofNat 32 (v >>> 32)) (swpSet sc off (BitVec.ofNat 32 v) s)

/-- Adds 1 to a saturating count of a sweep block. -/
def swpCount (sc : Scope) (off : Nat) (s : State) : State := swpSet sc off (satAdd (swpGet s sc off) 1) s

/-- SWP_STAT.STATE. -/
def swpState (s : State) (sc : Scope) : Nat := fld (swpGet s sc 0x18) 1 0

/-- Sets SWP_STAT.STATE. -/
def swpPutState (sc : Scope) (v : Nat) (s : State) : State :=
  swpSet sc 0x18 (setFld (swpGet s sc 0x18) 1 0 v) s

/-- SWP_CFG.SPACE. -/
def swpSpace (s : State) (sc : Scope) : Nat := fld (swpGet s sc 4) 9 8

/-- Size of a sweep space (Table ECC-3); 0 where it is reserved. -/
def swpSize (s : State) (sc : Scope) (space : Nat) : Nat :=
  match sc with
  | .module =>
    match space with
    | 1 => bulkSize
    | 2 => 512 * 0x1000000
    | 3 => 512 * 0x1000000
    | _ => 0
  | .chamber n =>
    match space with
    | 0 => winSize s (chOf s n.val)
    | 1 => ((chOf s n.val).ranges.map (fun r => r.2 * 2 ^ 30)).sum
    | _ => 0

/-- Whether START is refused (R316). -/
def swpRefused (s : State) (sc : Scope) : Bool :=
  let b := swpPair s sc 0x08
  let l := swpPair s sc 0x10
  let share := fld (swpGet s sc 4) 6 0
  swpState s sc == 1 || decide (b % 4096 ≠ 0 ∨ l % 4096 ≠ 0 ∨ l = 0) ||
  decide (swpSize s sc (swpSpace s sc) < b + l) || decide (share = 0 ∨ 64 < share) ||
  (match sc with
   | .module => false
   | .chamber n => let c := (chOf s n.val).st
     !(c == .idle || c == .running || c == .halted))

/-- START (R316): the summary clears, POS is BASE, the engine runs. -/
def swpStart (sc : Scope) (s : State) : State :=
  if swpRefused s sc then swpSet sc 0x18 (setBit (swpGet s sc 0x18) 2 true) s
  else
    swpPutState sc 1 (swpSetPair sc 0x1C (swpPair s sc 0x08)
      (swpSet sc 0x24 0 (swpSet sc 0x28 0 (swpSetPair sc 0x2C (2 ^ 64 - 1) (swpSetPair sc 0x34 (2 ^ 64 - 1)
        (swpSetPair sc 0x3C 0 s))))))

/-- SCOPE of a sweep record. -/
def scopeCode (sc : Scope) : Nat :=
  match sc with
  | .module => 0xFF
  | .chamber n => n.val

/-- The sweep record (Table ECC-4). -/
def swpRecord (s : State) (sc : Scope) (st : Nat) : Bytes :=
  natLe 2 0xF04 ++ natLe 1 st ++ natLe 1 (scopeCode sc) ++ natLe 1 (swpSpace s sc) ++ natLe 3 0 ++ natLe 8 (now s) ++
  natLe 4 (swpGet s sc 0x24).toNat ++ natLe 4 (swpGet s sc 0x28).toNat ++ natLe 8 (swpPair s sc 0x2C) ++
  natLe 8 (swpPair s sc 0x34) ++ natLe 8 (swpPair s sc 0x3C) ++ natLe 8 (swpPair s sc 0x1C) ++ natLe 8 0

/-- A sweep ends in a state, with its record (R319, R320). -/
def swpEnd (sc : Scope) (st : Nat) (s : State) : State :=
  let s1 := swpPutState sc st s
  let r := match sc with
    | .module => none
    | .chamber n => ringOf s1 n.val
  raiseRec r 0xF04 false (swpRecord s1 sc st) s1

/-- A running sweep ends ABORTED (R319). -/
def swpAbort (sc : Scope) (s : State) : State := if swpState s sc = 1 then swpEnd sc 3 s else s

/-- Every sweep ends ABORTED. -/
def swpAbortAll (s : State) : State :=
  forAll (List.finRange 32) (fun n t => swpAbort (.chamber n) t) (swpAbort .module s)

/-- What the check of one word found (R317). -/
inductive SwpFound where
  | clean | unwritten | corrected | bad
  deriving DecidableEq, Repr

/-- Whether a cluster test left an unlisted word of a slice written (R329, log entry 105): free. -/
def testLeft (core off : Nat) (s : State) : Bool :=
  match Tab.get 0 (core / 16) s.tested with
  | 0 => false
  | k + 1 => (Config.freeWord (k + core % 16 * 0x80000 + off / 32)).getLsbD 0

/-- Checks a gallery word: an invalid word is not decoded, a correctable one is corrected, an uncorrectable
one left (R317). -/
def swpGallery (core off : Nat) (s : State) : SwpFound × State :=
  let w := galKey core off / 32
  if !Tab.get false w s.galValid then (if testLeft core off s then .clean else .unwritten, s)
  else
    match galDecode (BitVec.ofNat 256 (leNat (galStored core off s))) (Tab.get 0 w s.galErr) with
    | .clean => (.clean, s)
    | .corrected _ _ _ => (.corrected, (galWord (agent 5) core off s).2)
    | .bad => (.bad, (galWord (agent 5) core off s).2)

/-- Checks a bulk word (R317). -/
def swpBulk (p : Nat) (s : State) : SwpFound × State :=
  let e := Tab.get 0 (p / 64) s.bulkErr
  let s1 := bump (68 + channelOf p) 9 64 s
  if e = 0 then (.clean, s1)
  else
    let r := bulkCheck (agent 5) p s1
    (if r.1 then .corrected else .bad, r.2)

/-- Bytes of a code word of a sweep's space. -/
def swpWord (s : State) (sc : Scope) : Nat := if swpSpace s sc = 1 then 64 else 32

/-- The word at POS (Table ECC-3). A slice of an excluded or unusable cluster is not reachable: its words count nowhere
(R331, log entry 105). -/
def swpCheck (sc : Scope) (s : State) : SwpFound × State :=
  let pos := swpPair s sc 0x1C
  match sc, swpSpace s sc with
  | .chamber n, 0 =>
    match winLoc s (chOf s n.val) pos with
    | some x => swpGallery x.1 x.2 s
    | none => (.clean, s)
  | .chamber n, _ => swpBulk (rangeAddr (chOf s n.val).ranges pos) s
  | .module, 1 => swpBulk pos s
  | .module, sp =>
    let core := 512 * (sp - 2) + pos / 0x1000000
    if isolated s (core / 16) then (.clean, s) else swpGallery core (pos % 0x1000000) s

/-- Counts a word with an error, and keeps FIRST and LAST (R317). -/
def swpNote (sc : Scope) (off pos : Nat) (s : State) : State :=
  let s1 := swpCount sc off s
  let s2 := ifdo (decide (pos < swpPair s1 sc 0x2C)) (swpSetPair sc 0x2C pos) s1
  let last := swpPair s2 sc 0x34
  ifdo (last == 2 ^ 64 - 1 || decide (last < pos)) (swpSetPair sc 0x34 pos) s2

/-- One word of a running sweep (R317, R319). -/
def sweepStep (sc : Scope) (s : State) : State :=
  let pos := swpPair s sc 0x1C
  let r := swpCheck sc s
  let s1 := match r.1 with
    | .clean => r.2
    | .unwritten => swpSetPair sc 0x3C (swpPair r.2 sc 0x3C + 1) r.2
    | .corrected => swpNote sc 0x24 pos r.2
    | .bad => swpNote sc 0x28 pos r.2
  let next := pos + swpWord s1 sc
  let s2 := swpSetPair sc 0x1C next s1
  if swpPair s2 sc 0x08 + swpPair s2 sc 0x10 ≤ next then swpEnd sc 2 s2 else s2

/-- SWEEP_WORD_CHECK (R317). -/
def execSweepWordCheck (scope : Scope) (s : State) : Host.Outcome State Fault Refusal :=
  if swpState s scope = 1 then .next (sweepStep scope s) else .next s

/-! ## Correction reports (R312, R314) -/

/-- Whether a hold-back window of 1 ms has ended with corrections held. -/
def windowEnded (h : HoldBack) (t : W64) : Bool :=
  match h.last with
  | some l => decide (l.toNat + 1000000 ≤ t.toNat) && h.held != 0
  | none => false

/-- CORRECTION_REPORT (R312): the event that carries the corrections held back. -/
def execCorrectionReport (scope : Scope) (s : State) : Host.Outcome State Fault Refusal :=
  match scope with
  | .chamber n =>
    let h := (chOf s n.val).ecc
    if windowEnded h s.time then
      .next (event n.val 0xF01 0 [h.held] (modCh n.val (fun c => { c with ecc := { last := some s.time, held := 0 } }) s))
    else .next s
  | .module =>
    if windowEnded s.nochEcc s.time then
      .next (eventG 0xF01 [s.nochEcc.held] { s with nochEcc := { last := some s.time, held := 0 } })
    else .next s

/-- SRAM_CORRECTION_REPORT (R314): at the end of a window with corrections held back, the event that carries
them; otherwise a base-die SRAM correction, which is counted and reported or held back (log entry 50). -/
def execSramCorrectionReport (s : State) : Host.Outcome State Fault Refusal :=
  if windowEnded s.sramEcc s.time then
    .next (eventG 0xF0A [s.sramEcc.held] { s with sramEcc := { last := some s.time, held := 0 } })
  else
    let h := holdBack s.sramEcc s.time
    let s1 := gcount 0x2010 1 { s with sramEcc := h.1 }
    match h.2 with
    | some k => .next (eventG 0xF0A [k] s1)
    | none => .next s1

/-! ## Raw access (R322, R323) -/

/-- A raw command that is ignored. -/
def rawRefuse (n : Nat) (s : State) : State :=
  event n 0xF05 0 [] (modCh n (cmod 0x1000 (fun w => setBit w 2 true)) s)

/-- Whether a raw command is ignored (R323). -/
def rawRefused (s : State) (n : Nat) : Bool :=
  let c := chOf s n
  decide ((allCh.filter (defined s)).length < 2) ||
  !(c.st == .idle || c.st == .running || c.st == .halted) || bit (cget 0x102C c) 0 ||
  decide (winSize s c ≤ cpair 0x1024 c)

/-- ECC_RAW_DATA0 to 7 as one number. -/
def rawData (c : Chamber) : BitVec 256 :=
  BitVec.ofNat 256 (((List.range 8).map (fun i => (cget (0x1030 + 4 * i) c).toNat * 2 ^ (32 * i))).sum)

/-- Puts ECC_RAW_DATA0 to 7. -/
def putRawData (d : BitVec 256) (c : Chamber) : Chamber :=
  (List.range 8).foldl (fun a i => cset (0x1030 + 4 * i) (BitVec.ofNat 32 (d.toNat >>> (32 * i))) a) c

/-- A raw READ (R323). -/
def rawReadWord (n core off : Nat) (s : State) : State :=
  let w := galKey core off / 32
  let v := Tab.get false w s.galValid
  let d : BitVec 256 := if v then BitVec.ofNat 256 (leNat (galStored core off s)) else 0
  let k : W16 := if v then galCheck d ^^^ Tab.get 0 w s.galErr else 0
  modCh n (fun c => putRawData d (cset 0x1050 (k.zeroExtend 32) (cset 0x102C (if v then 3 else 1) c))) s

/-- A raw WRITE (R323): data and check as given, valid bit 1. -/
def rawWriteWord (n core off : Nat) (s : State) : State :=
  let c := chOf s n
  let d := rawData c
  let w := galKey core off / 32
  let s1 := galPut core off (natLe 32 d.toNat) s
  let s2 := { s1 with galErr := Tab.set 0 w (galCheck d ^^^ (cget 0x1050 c).truncate 16) s1.galErr }
  modCh n (cmod 0x102C (fun x => setBit x 0 true)) s2

/-- A write of ECC_RAW_CMD. -/
def rawCommand (n op : Nat) (s : State) : State :=
  if op ≠ 1 ∧ op ≠ 2 then s
  else if rawRefused s n then rawRefuse n s
  else
    match winLoc s (chOf s n) (cpair 0x1024 (chOf s n)) with
    | none => rawRefuse n s
    | some x => if op = 1 then rawReadWord n x.1 x.2 s else rawWriteWord n x.1 x.2 s

/-- RAW_COMMAND_COMPLETE (R323): BUSY clears. -/
def execRawCommandComplete (ch : Fin 32) (s : State) : Host.Outcome State Fault Refusal :=
  .next (modCh ch.val (cmod 0x102C (fun w => setBit w 0 false)) s)

/-! ## The repair map (R325, R326) -/

/-- Words of a shaft's map. -/
def mapBase (core : Nat) : Nat := 1024 + 15 * core

/-- The CHECK of a shaft's map (Table ECC-5), for its word 0. -/
def mapCheck (s : State) (core : Nat) (w0 : W32) : Nat :=
  (crc32c (natLe 2 w0.toNat ++ (List.range 14).flatMap (fun i => natLe 4 (flowAt s (mapBase core + 1 + i)).toNat))).toNat
    % 65536

/-- Whether a shaft's map passes its CHECK. -/
def mapOk (s : State) (core : Nat) : Bool :=
  let w := flowAt s (mapBase core)
  fld w 31 16 == mapCheck s core w

/-- ENTRIES of a shaft's map. -/
def mapEntries (s : State) (core : Nat) : Nat := fld (flowAt s (mapBase core)) 4 0

/-- Entry `i` of a shaft's map. -/
def mapEntry (s : State) (core i : Nat) : Nat :=
  let w := flowAt s (mapBase core + 1 + i / 2)
  if i % 2 = 0 then fld w 15 0 else fld w 31 16

/-- Whether the map has an entry for a group of a tier. -/
def mapHas (s : State) (core : Nat) (tier : Bool) (group : Nat) : Bool :=
  (List.range (mapEntries s core)).any (fun i =>
    let e := mapEntry s core i
    decide (e / 32 % 128 = (if tier then 1 else 0) + 2 * group))

/-- The words that record a new failing bond: an entry, or BAD where the group has one or the map is full (R326); entry
word first, then word 0. A shaft that is BAD already does not change. -/
def mapRecord (s : State) (b : BondFail) : List (Nat × W32) :=
  let core := b.core.val
  let base := mapBase core
  let w0 := flowAt s base
  let n := mapEntries s core
  let withCheck := fun (t : State) (w : W32) => setFld w 31 16 (mapCheck t core w)
  if mapHas s core b.tier b.group.toNat || decide (28 ≤ n) then
    (if bit w0 8 then [] else [(base, withCheck s (setBit w0 8 true))])
  else
    let e := min b.bond.toNat 16 + (if b.tier then 32 else 0) + b.group.toNat * 64 + 0x8000
    let i := base + 1 + n / 2
    let w := flowAt s i
    let w1 := if n % 2 = 0 then setFld w 15 0 e else setFld w 31 16 e
    let t := { s with flow := Tab.set 0 i w1 s.flow }
    [(i, w1), (base, withCheck t (setFld w0 4 0 (n + 1)))]

/-- Whether the map already routes around a bond. -/
def mapRouted (s : State) (b : BondFail) : Bool :=
  (List.range (mapEntries s b.core.val)).any (fun i =>
    mapEntry s b.core.val i == min b.bond.toNat 16 + (if b.tier then 32 else 0) + b.group.toNat * 64 + 0x8000)

/-! ## Cluster tests (R328, R329) -/

/-- ECC_CBIST_STAT.STATE. -/
def cbistState (s : State) : Nat := fld (gget 0x2034 s) 1 0

/-- A running cluster test ends ABORTED (R329). -/
def cbistStop (s : State) : State :=
  if cbistState s = 1 then gmod 0x2034 (fun w => setFld w 1 0 3) s else s

/-- The cluster of the last test. -/
def cbistCluster (s : State) : Nat := fld (gget 0x2034 s) 21 16

/-- START of a cluster test (R328): the island of an excluded or unusable cluster starts (R331), and the test overwrites
the cluster's core stores and slices (R329). What it leaves in a slice is free (log entry 105); a core store is read by
nothing before a chamber's creation clears it (R48). -/
def cbistBegin (cluster tests : Nat) (update : Bool) (s : State) : State :=
  if (chOfCluster s cluster).isSome || cbistState s == 1 || tests == 0 then gsetBit 0x2034 23 s
  else
    let inSlices := fun (k : Nat) => k / 0x800000 == cluster
    let inStores := fun (k : Nat) => k / 0x400000 == cluster
    { gset 0x2034 (BitVec.ofNat 32 (1 + cluster * 2 ^ 16 + (gget 0x2034 s).toNat / 2 ^ 23 % 2 * 2 ^ 23)) s with
      cbistUpdate := update
      cbistTests := tests
      clusters := if isolated s cluster then Tab.set {} cluster {} s.clusters else s.clusters
      galValid := Tab.drop inSlices s.galValid
      galErr := Tab.drop inSlices s.galErr
      core := Tab.drop inStores s.core
      coreBad := Tab.drop inStores s.coreBad
      tested := Tab.set 0 cluster (s.free + 1) s.tested
      free := s.free + 0x800000 }

/-- A state whose map words stand as given, for working out further entries before flowstone has taken them. -/
def withWords (ws : List (Nat × W32)) (s : State) : State :=
  { s with flow := ws.foldl (fun f e => Tab.set 0 e.1 e.2 f) s.flow }

/-- The map writes that record new failing bonds, worked out one after the other: the writes, in order, and
the state in which they stand (R326; log entry 58). -/
def mapNote : List BondFail → State → List (Nat × W32) × State
  | [], s => ([], s)
  | b :: l, s =>
    if mapRouted s b then mapNote l s
    else
      let ws := mapRecord s b
      let r := mapNote l (withWords ws s)
      (ws ++ r.1, r.2)

/-- Records new bond failures of a test with UPDATE = 1 (R328): NEWREP where an entry was added. -/
def cbistRecord (bonds : List BondFail) (s : State) : State :=
  match (mapNote bonds s).1 with
  | [] => s
  | ws => ifdo (ws.any (fun e => (e.1 - 1024) % 15 != 0)) (gsetBit 0x2034 22) (flowEnqueue ws s)

/-- CBIST_COMPLETE (R328): of the tests that TESTS selected, those that failed, the core of the first failure in the
cluster, and the failing bonds of the cluster's shafts that the SHAFT test found. -/
def execCbistComplete (failmask first : BitVec 4) (bonds : List BondFail) (s : State) :
    Host.Outcome State Fault Refusal :=
  if cbistState s = 1 then
    let cl := cbistCluster s
    let mask := failmask &&& BitVec.ofNat 4 s.cbistTests
    let s1 := gmod 0x2034 (fun w => setFld (setFld (setFld w 1 0 2) 5 2 mask.toNat) 15 6
      (if mask = 0 then 0 else 16 * cl + first.toNat)) s
    let s2 := ifdo (s1.cbistUpdate && mask.getLsbD 3) (cbistRecord (bonds.filter (fun b => b.core.val / 16 == cl))) s1
    .next (ifdo (mask != 0) (eventG 0xF06 []) s2)
  else .next s

/-! ## Module-fatal faults (R333) -/

/-- A module-fatal fault: FATAL and FATAL_CODE (a later one keeps the first; log entry 51), the event, every
chamber HALTED, sweeps and cluster tests ABORTED; BAR2 reads that waited for a rotation are served (R60). -/
def fatalFault (code : Nat) (details : List Nat) (s : State) : State :=
  let s1 := if isFatalSet s then s else gset 0x2000 (BitVec.ofNat 32 (1 + code * 65536)) s
  resumeWindow (cbistStop (swpAbortAll (haltEvery code (eventG code details s1))))
where
  /-- ECC_MOD_STAT.FATAL. -/
  isFatalSet (s : State) : Bool := bit (gget 0x2000 s) 0

/-- SRAM_UNCORRECTABLE (R314). -/
def execSramUncorrectable (s : State) : Host.Outcome State Fault Refusal := .next (fatalFault 0xF09 [] s)

end Sys2Proof.Machine
end

