-- ==== Sys2Proof/Machine/Ecdsa.lean ====
section
/-! DEFINITION. Ecdsa.lean: ECDSA P-384 verification (R34, Table STR-10), from the curve standard's domain
parameters (FIPS 186; log entry 47). -/
namespace Sys2Proof.Machine
open Sys2Proof

/-- The field prime of P-384. -/
def ecP : Nat := 2 ^ 384 - 2 ^ 128 - 2 ^ 96 + 2 ^ 32 - 1

/-- The order of the base point. -/
def ecN : Nat :=
  0xffffffffffffffffffffffffffffffffffffffffffffffffc7634d81f4372ddf581a0db248b0a77aecec196accc52973

/-- The coefficient b of y² = x³ − 3x + b. -/
def ecB : Nat :=
  0xb3312fa7e23ee7e4988e056be3f82d19181d9c6efe8141120314088f5013875ac656398d8a2ed19d2a85c8edd3ec2aef

/-- The base point. -/
def ecG : Nat × Nat :=
  (0xaa87ca22be8b05378eb1c71ef320ad746e1d3b628ba79b9859f741e082542a385502f25dbf55296c3a545e3872760ab7,
   0x3617de4a96262c6f5d9e98bf9292dc29f8f41dbd289a147ce9da3113b5f0b8c00a60b1ce1d7e819d7a431d7c90ea0e5f)

/-- a^e modulo m, over the low `bits` bits of e, highest first. -/
def powMod (m a e : Nat) : Nat → Nat
  | 0 => 1 % m
  | bits + 1 =>
    let r := powMod m a (e / 2) bits
    if e % 2 = 1 then r * r % m * a % m else r * r % m

/-- The inverse modulo a prime below 2^384. -/
def invMod (m a : Nat) : Nat := powMod m a (m - 2) 384

/-- A point in Jacobian coordinates; z = 0 for the point at infinity. -/
abbrev JPoint := Nat × Nat × Nat

/-- Difference modulo the field prime. -/
def subP (a b : Nat) : Nat := (a % ecP + ecP - b % ecP) % ecP

/-- Doubles a point. -/
def ecDouble (q : JPoint) : JPoint :=
  let (x, y, z) := q
  if z = 0 ∨ y = 0 then (1, 1, 0)
  else
    let z2 := z * z % ecP
    let m := 3 * subP x z2 * (x + z2) % ecP
    let y2 := y * y % ecP
    let t := 4 * x * y2 % ecP
    let x3 := subP (m * m) (2 * t)
    (x3, subP (m * subP t x3) (8 * y2 * y2), 2 * y * z % ecP)

/-- Adds two points. -/
def ecAdd (a b : JPoint) : JPoint :=
  let (x1, y1, z1) := a
  let (x2, y2, z2) := b
  if z1 = 0 then b
  else if z2 = 0 then a
  else
    let u1 := x1 * z2 * z2 % ecP
    let u2 := x2 * z1 * z1 % ecP
    let s1 := y1 * z2 * z2 % ecP * z2 % ecP
    let s2 := y2 * z1 * z1 % ecP * z1 % ecP
    if u1 = u2 then (if s1 = s2 then ecDouble a else (1, 1, 0))
    else
      let h := subP u2 u1
      let r := subP s2 s1
      let h2 := h * h % ecP
      let h3 := h2 * h % ecP
      let v := u1 * h2 % ecP
      let x3 := subP (subP (r * r) h3) (2 * v)
      (x3, subP (r * subP v x3) (s1 * h3), h * z1 % ecP * z2 % ecP)

/-- k times a point, over the low `bits` bits of k, highest first. -/
def ecMul (q : JPoint) (k : Nat) : Nat → JPoint
  | 0 => (1, 1, 0)
  | bits + 1 =>
    let r := ecDouble (ecMul q (k / 2) bits)
    if k % 2 = 1 then ecAdd r q else r

/-- Whether a 96-byte signature, r then s big-endian, verifies for a 48-byte digest under a 96-byte public
key, x then y big-endian (R34). -/
def ecdsaVerify (key digest sig : Bytes) : Bool :=
  let qx := beNat (slice key 0 48)
  let qy := beNat (slice key 48 48)
  let r := beNat (slice sig 0 48)
  let t := beNat (slice sig 48 48)
  let onCurve := decide (qx < ecP ∧ qy < ecP ∧ qy * qy % ecP = (qx * qx * qx + (ecP - 3) * qx + ecB) % ecP)
  if !onCurve || r == 0 || t == 0 || decide (ecN ≤ r ∨ ecN ≤ t) then false
  else
    let w := invMod ecN t
    let z := beNat digest
    let x := ecAdd (ecMul (ecG.1, ecG.2, 1) (z * w % ecN) 384) (ecMul (qx, qy, 1) (r * w % ecN) 384)
    if x.2.2 = 0 then false
    else
      let zi := invMod ecP x.2.2
      decide (x.1 * zi % ecP * zi % ecP % ecN = r)

end Sys2Proof.Machine
end

