-- ==== Sys2Proof/Machine/Image.lean ====
section
/-! DEFINITION. Image.lean: the structure image: its format (R33 to R36, R293, R330, R368), its checks (R37,
R38, R294) and the factory image (R39). -/
namespace Sys2Proof.Machine
open Sys2Proof

/-! ## Checks 1 to 5 of R37 -/

/-- TOTAL_SIZE of an image. -/
def totalSize (bs : Bytes) : Nat := at_ bs 8 4

/-- Whether TOTAL_SIZE is legal for the bytes that a slot holds (R33, R37 check 1). -/
def sizeOk (bs : Bytes) : Bool :=
  let t := totalSize bs
  bs != [] && decide (640 ≤ t ∧ t ≤ 0x100000 ∧ t % 16 = 0 ∧ t ≤ bs.length)

/-- Whether the check word matches (R34). -/
def checkWordOk (bs : Bytes) : Bool :=
  let t := totalSize bs
  at_ bs (t - 4) 4 == (crc32c (bs.take (t - 4))).toNat

/-- The digest of an image: every byte before the trailer (R34, Table STR-16 block 4). -/
def imageDigest (bs : Bytes) : Bytes := sha384 (bs.take (totalSize bs - 128))

/-- Whether KEY_ID names a key that is not revoked and the signature verifies (R37 check 3). -/
def signatureOk (policy : W32) (bs : Bytes) : Bool :=
  let k := at_ bs 0x16 1
  decide (k ≤ 3) && !bit policy (8 + k) &&
  ecdsaVerify (Config.romKey k) (imageDigest bs) (slice bs (totalSize bs - 128) 96)

/-- The first of checks 1 to 5 of R37 that fails, 0 for none. -/
def firstFailed (policy : W32) (bs : Bytes) : Nat :=
  if !sizeOk bs then 1
  else if !checkWordOk bs then 2
  else if !signatureOk policy bs then 3
  else if at_ bs 0x14 1 < fld policy 7 0 then 4
  else if at_ bs 0x0C 4 ≠ 0x00090001 then 5
  else 0

/-! ## Sections (R35, R38) -/

/-- One used entry of the section table. -/
structure Sect where
  type : Nat
  off : Nat
  len : Nat
  deriving DecidableEq, Repr

/-- The entries of the section table that SECTIONS counts. -/
def sectionsOf (bs : Bytes) : List Sect :=
  (List.range (at_ bs 0x15 1)).map (fun i =>
    ⟨at_ bs (0x40 + 16 * i) 2, at_ bs (0x44 + 16 * i) 4, at_ bs (0x48 + 16 * i) 4⟩)

/-- Header and trailer conditions of R38. -/
def headerOk (bs : Bytes) : Bool :=
  let n := at_ bs 0x15 1
  let t := totalSize bs
  at_ bs 0 4 == 0x49535A46 && at_ bs 4 2 == 1 && at_ bs 6 2 == 0x200 && decide (1 ≤ n ∧ n ≤ 16) &&
  zeroAt bs 0x17 9 && zeroAt bs 0x28 24 && zeroAt bs 0x140 192 && zeroAt bs (t - 32) 28 &&
  zeroAt bs (0x40 + 16 * n) (256 - 16 * n) &&
  (List.range n).all (fun i => zeroAt bs (0x42 + 16 * i) 2 && zeroAt bs (0x4C + 16 * i) 4)

/-- Whether two sections overlap. -/
def overlap (a b : Sect) : Bool := decide (a.off < b.off + b.len ∧ b.off < a.off + a.len)

/-- Types, places and uniqueness of the sections (R38; log entry 48 for the multiple of 16). -/
def sectionsOk (bs : Bytes) : Bool :=
  let l := sectionsOf bs
  l.all (fun x => decide (1 ≤ x.type ∧ x.type ≤ 5 ∧ 0x200 ≤ x.off ∧ x.off + x.len ≤ totalSize bs - 128 ∧
    x.off % 16 = 0) && l.countP (fun y => y.type == x.type) == 1 &&
    l.countP (fun y => overlap x y) == 1)

/-- The content of the section of a type. -/
def sectionOf (bs : Bytes) (type : Nat) : Option Bytes :=
  ((sectionsOf bs).find? (fun x => x.type == type)).map (fun x => slice bs x.off x.len)

/-! ## CHAMBERS (Table STR-3) -/

/-- A chamber record. -/
def recOf (b : Bytes) : ChRec :=
  { chamber := at_ b 0 1, cls := at_ b 1 1, vf := at_ b 2 1, alcoves := at_ b 3 1,
    clusters := BitVec.ofNat 64 (at_ b 4 8),
    masks := (List.range 8).map (fun k => BitVec.ofNat 64 (at_ b (0x0C + 8 * k) 8)),
    opShare := at_ b 0x4C 2, winDepth := at_ b 0x4E 1, pwrShare := at_ b 0x50 1, bulkWt := at_ b 0x51 1,
    linkWt := at_ b 0x52 1, bridgeWt := at_ b 0x53 1, adpCap := at_ b 0x54 2 }

/-- The legal values of Table STR-3. -/
def recLegal (b : Bytes) : Bool :=
  let r := recOf b
  decide (r.chamber ≤ 31 ∧ r.cls ≤ 1 ∧ 1 ≤ r.vf ∧ r.vf ≤ 32) && r.clusters != 0 &&
  (if r.cls = 0 then decide (1 ≤ r.alcoves ∧ r.alcoves ≤ 8 ∧ r.adpCap = 0)
   else decide (r.alcoves = 1 ∧ 1 ≤ r.adpCap ∧ r.adpCap ≤ 256)) &&
  decide (1 ≤ r.opShare ∧ r.opShare ≤ 4096 ∧ 2 ≤ r.winDepth ∧ r.winDepth ≤ 6) &&
  decide (1 ≤ r.pwrShare ∧ 1 ≤ r.bulkWt ∧ 1 ≤ r.linkWt ∧ 1 ≤ r.bridgeWt) &&
  zeroAt b 0x4F 1 && zeroAt b 0x56 42

/-- Whether the alcove masks divide the cluster mask exactly, none of them empty (R38). -/
def masksOk (r : ChRec) : Bool :=
  let used := r.masks.take r.alcoves
  used.all (· != 0) && (r.masks.drop r.alcoves).all (· == 0) &&
  (List.range 64).all (fun i =>
    used.countP (fun m => m.getLsbD i) == (if r.clusters.getLsbD i then 1 else 0))

/-- The chamber records of a section. -/
def recsOf (b : Bytes) : List ChRec := (List.range (b.length / 128)).map (fun i => recOf (slice b (128 * i) 128))

/-- The CHAMBERS conditions of R38, with the clusters that count as excluded (R327). -/
def chambersOk (excl : W64) (b : Bytes) : Bool :=
  let l := recsOf b
  b.length % 128 == 0 && decide (1 ≤ l.length ∧ l.length ≤ 32) &&
  (List.range l.length).all (fun i => recLegal (slice b (128 * i) 128)) && l.all masksOk &&
  l.all (fun r => l.countP (fun q => q.chamber == r.chamber) == 1 && l.countP (fun q => q.vf == r.vf) == 1 &&
    r.clusters &&& excl == 0) &&
  (List.range 64).all (fun i => decide (l.countP (fun r => r.clusters.getLsbD i) ≤ 1)) &&
  decide ((l.map (·.opShare)).sum ≤ 4096)

/-! ## MEMORY (R36) -/

/-- The bulk ranges of a MEMORY section: chamber, START, LENGTH. -/
def rangesOf (b : Bytes) : List (Nat × Nat × Nat) :=
  (List.range (at_ b 8 4)).map (fun i =>
    (at_ b (12 + 8 * i) 1, at_ b (16 + 8 * i) 2, at_ b (18 + 8 * i) 2))

/-- The MEMORY conditions of R36 and R38. -/
def memoryOk (recs : List ChRec) (b : Bytes) : Bool :=
  let l := rangesOf b
  decide (12 ≤ b.length ∧ at_ b 0 4 ≤ 128 ∧ at_ b 4 4 ≤ 128 ∧ at_ b 8 4 ≤ 256 ∧ b.length = 12 + 8 * at_ b 8 4) &&
  (List.range l.length).all (fun i => zeroAt b (13 + 8 * i) 3) &&
  l.all (fun r => recs.any (fun q => q.chamber == r.1) && decide (1 ≤ r.2.2 ∧ r.2.1 + r.2.2 ≤ 480) &&
    decide (l.countP (fun q => q.1 == r.1) ≤ 8) &&
    l.countP (fun q => decide (q.2.1 < r.2.1 + r.2.2 ∧ r.2.1 < q.2.1 + q.2.2)) == 1)

/-! ## LINKS (R293, R294) -/

/-- The non-zero entries of the routing table. -/
def routesOf (b : Bytes) : Tab W32 :=
  ((List.range 4096).map (fun m => (m, BitVec.ofNat 32 (at_ b (0x10 + 4 * m) 4)))).filter (fun e => e.2 != 0)

/-- The peer entries. -/
def peersOf (b : Bytes) : List PeerRec :=
  (List.range (at_ b 0x0A 2)).map (fun i =>
    let o := 0x4010 + 8 * i
    ⟨at_ b o 1, at_ b (o + 1) 1, at_ b (o + 2) 2, at_ b (o + 4) 1⟩)

/-- Whether a chamber's peer indices run without gaps from 0, none of them twice. -/
def indicesOk (l : List PeerRec) (ch : Nat) : Bool :=
  let mine := l.filter (fun p => p.chamber == ch)
  (List.range mine.length).all (fun i => mine.countP (fun p => p.index == i) == 1)

/-- The LINKS conditions of R293, R294, R330 and R38. -/
def linksOk (recs : List ChRec) (exclPorts : W32) (b : Bytes) : Bool :=
  let mid := at_ b 0 2
  let tp := at_ b 2 1
  let en := BitVec.ofNat 32 (at_ b 4 4)
  let coord := at_ b 8 2
  let rt := routesOf b
  let ps := peersOf b
  let route := fun (m : Nat) => (Tab.get 0 m rt : W32)
  let usable : W32 := en &&& ~~~exclPorts
  decide (0x4010 ≤ b.length ∧ at_ b 0x0A 2 ≤ 4096 ∧ b.length = 0x4010 + 8 * at_ b 0x0A 2) &&
  decide (mid ≤ 4095 ∧ (coord = 0xFFFF ∨ coord ≤ 4095)) && zeroAt b 3 1 && zeroAt b 7 1 && zeroAt b 0x0C 4 &&
  en &&& exclPorts == 0 && (tp == 0xFF || (decide (tp < 24) && bit usable tp)) &&
  route mid == 0x01000000#32 &&
  rt.all (fun e => decide (e.2.toNat < 2 ^ 25) && (e.1 == mid || !bit e.2 24) &&
    (e.2 &&& 0xFFFFFF#32) &&& ~~~usable == 0) &&
  ps.all (fun p => recs.any (fun q => q.chamber == p.chamber) && decide (p.index ≤ 254 ∧ p.peer ≤ 31) &&
    decide (p.module ≤ 4095) && route p.module != 0 && indicesOk ps p.chamber) &&
  (List.range ps.length).all (fun i => zeroAt b (0x4010 + 8 * i + 5) 3)

/-! ## CLOCKS and EXCLUSIONS (R330, R368) -/

/-- Frequency codes of a run of bytes. -/
def freqCodes (b : Bytes) (off n : Nat) : List Nat := (List.range n).map (fun i => at_ b (off + i) 1)

/-- The CLOCKS conditions of R368. -/
def clocksOk (b : Bytes) : Bool :=
  let cap := at_ b 0 2
  b.length == 112 && (freqCodes b 4 94).all (fun f => decide (f ≤ 44)) &&
  decide (cap = 0 ∨ (500 ≤ cap ∧ cap ≤ 1400)) && decide (at_ b 2 1 ≤ 1) && zeroAt b 3 1 && zeroAt b 0x62 14

/-- The EXCLUSIONS conditions of R330. -/
def exclusionsOk (b : Bytes) : Bool := b.length == 16 && zeroAt b 11 1 && zeroAt b 12 4

/-! ## The whole check and the image -/

/-- The excluded clusters and ports that an image names. -/
def exclOf (bs : Bytes) : W64 × W32 :=
  match sectionOf bs 5 with
  | some b => (BitVec.ofNat 64 (at_ b 0 8), BitVec.ofNat 32 (at_ b 8 4))
  | none => (0, 0)

/-- The semantic check of R38, with the clusters that are unusable at this start (R327). -/
def semanticOk (unusable : W64) (bs : Bytes) : Bool :=
  let ex := exclOf bs
  headerOk bs && sectionsOk bs &&
  (match sectionOf bs 5 with | some b => exclusionsOk b | none => true) &&
  (match sectionOf bs 4 with | some b => clocksOk b | none => true) &&
  (match sectionOf bs 1, sectionOf bs 2 with
   | some c, some m =>
     chambersOk (ex.1 ||| unusable) c && memoryOk (recsOf c) m &&
     (match sectionOf bs 3 with | some l => linksOk (recsOf c) ex.2 l | none => true)
   | _, _ => false)

/-- The MEMORY part of an image. -/
def withMemory (b : Bytes) (i : Image) : Image :=
  { i with echo0 := at_ b 0 4, echo1 := at_ b 4 4, ranges := rangesOf b }

/-- The LINKS part of an image. -/
def withLinks (b : Bytes) (i : Image) : Image :=
  { i with moduleId := at_ b 0 2, timePort := at_ b 2 1, portEn := BitVec.ofNat 32 (at_ b 4 4),
           coord := if at_ b 8 2 = 0xFFFF then none else some (at_ b 8 2), route := routesOf b, peers := peersOf b }

/-- The CLOCKS part of an image. -/
def withClocks (b : Bytes) (i : Image) : Image :=
  { i with capInit := if at_ b 0 2 = 0 then 1200 else at_ b 0 2, shift := at_ b 2 1 == 1,
           clusterF := freqCodes b 4 64, fabricF := freqCodes b 0x44 2, teF := freqCodes b 0x46 2,
           mcF := freqCodes b 0x48 2, linkF := freqCodes b 0x4A 24 }

/-- The image that accepted bytes express. -/
def imageOf (bs : Bytes) : Image :=
  let ex := exclOf bs
  let part := fun (t : Nat) (f : Bytes → Image → Image) (i : Image) =>
    match sectionOf bs t with
    | some b => f b i
    | none => i
  part 4 withClocks (part 3 withLinks (part 2 withMemory
    { imageId := BitVec.ofNat 32 (at_ bs 0x10 4), svn := at_ bs 0x14 1,
      chambers := match sectionOf bs 1 with | some b => recsOf b | none => [],
      exclClusters := ex.1, exclPorts := ex.2 }))

/-- The factory image (Table STR-4): one chamber of every usable cluster, with all 480 usable GiB of bulk memory. -/
def factoryImage (unusable : W64) : Image :=
  { chambers := [{ chamber := 0, cls := 0, vf := 1, alcoves := 1, clusters := ~~~unusable,
                   masks := ~~~unusable :: List.replicate 7 0, opShare := 4096, winDepth := 6, pwrShare := 1,
                   bulkWt := 1, linkWt := 1, bridgeWt := 1, adpCap := 0 }],
    ranges := [(0, 0, 480)] }

/-- The chamber that a record creates (R44 to R49): its shape, its ranges in MEMORY-section order and its
peers in INDEX order (R294), before creation. -/
def chamberOf (i : Image) (r : ChRec) : Chamber :=
  let mine := i.peers.filter (fun p => p.chamber == r.chamber)
  { st := .clearing, cls := r.cls, vf := r.vf, alcoves := r.alcoves, clusters := r.clusters,
    masks := r.masks.take r.alcoves, opShare := r.opShare, winDepth := r.winDepth, pwrShare := r.pwrShare,
    bulkWt := r.bulkWt, linkWt := r.linkWt, bridgeWt := r.bridgeWt, adpCap := r.adpCap,
    ranges := (i.ranges.filter (fun x => x.1 == r.chamber)).map (fun x => (x.2.1, x.2.2)),
    peers := (List.range mine.length).filterMap (fun k =>
      (mine.find? (fun p => p.index == k)).map (fun p => (p.module, p.peer))) }

end Sys2Proof.Machine
end

