-- ==== Sys2Proof/Machine/Float.lean ====
section
/-! DEFINITION. Float.lean: exact arithmetic, the rounding rules and the number formats of
03_number_formats.md (R65 to R84), and the special functions of R159. A finite value is held exactly as
a sign, an integer and a power of two; nothing is rounded until a rule rounds it. -/
namespace Sys2Proof.Machine
open Sys2Proof

/-- A value of a floating-point format, exactly: NaN, an infinity, or (-1)^neg * m * 2^e (R71, R72). -/
inductive XV where
  | nan
  | inf (neg : Bool)
  | fin (neg : Bool) (m : Nat) (e : Int)
  deriving DecidableEq, Repr

/-- An IEEE layout: exponent bits and fraction bits. -/
structure Fmt where
  eb : Nat
  mb : Nat
  deriving DecidableEq, Repr

/-- binary32 (R71). -/
def f32 : Fmt := ⟨8, 23⟩
/-- BF16: 1-8-7 (R71). -/
def bf16 : Fmt := ⟨8, 7⟩
/-- binary64 (R238). -/
def f64 : Fmt := ⟨11, 52⟩

/-- Exponent bias. -/
def Fmt.bias (f : Fmt) : Nat := 2 ^ (f.eb - 1) - 1
/-- Code of infinity without its sign. -/
def Fmt.infCode (f : Fmt) : Nat := (2 ^ f.eb - 1) * 2 ^ f.mb
/-- The NaN that the module produces (R72): 0x7FC0_0000, 0x7FC0. -/
def Fmt.nanCode (f : Fmt) : Nat := f.infCode + 2 ^ (f.mb - 1)
/-- The sign bit's weight. -/
def Fmt.signBit (f : Fmt) : Nat := 2 ^ (f.eb + f.mb)

/-- The value of a code; subnormals keep their value (R71). -/
def decodeF (f : Fmt) (c : Nat) : XV :=
  let neg := c / f.signBit % 2 == 1
  let ex := c / 2 ^ f.mb % 2 ^ f.eb
  let fr := c % 2 ^ f.mb
  if ex = 2 ^ f.eb - 1 then (if fr = 0 then .inf neg else .nan)
  else if ex = 0 then .fin neg fr (1 - (f.bias : Int) - f.mb)
  else .fin neg (2 ^ f.mb + fr) ((ex : Int) - f.bias - f.mb)

/-- Rounding modes: nearest even; stochastic with the 16 bits R (R81); nearest, ties away, for a sum
whose sticky bit is set (R75). -/
inductive Rnd where
  | rne
  | sr (r : Nat)
  | sticky
  deriving DecidableEq, Repr

/-- Rounds m * 2^e to a multiple of 2^q and gives that multiple (R81 on the magnitude). -/
def roundMag (m : Nat) (e q : Int) (mode : Rnd) : Nat :=
  if q ≤ e then m <<< (e - q).toNat
  else
    let sh := (q - e).toNat
    let k := m >>> sh
    let r := m % 2 ^ sh
    match mode with
    | .rne => if 2 * r > 2 ^ sh ∨ (2 * r = 2 ^ sh ∧ k % 2 = 1) then k + 1 else k
    | .sticky => if 2 * r ≥ 2 ^ sh then k + 1 else k
    | .sr rb => if 65536 * r / 2 ^ sh + rb ≥ 65536 then k + 1 else k

/-- The code, without sign and without a limit, of m * 2^e rounded to a format. -/
def roundCode (f : Fmt) (mode : Rnd) (m : Nat) (e : Int) : Nat :=
  if m = 0 then 0
  else
    let ex := max ((Nat.log2 m : Int) + e) (1 - (f.bias : Int))
    let k := roundMag m e (ex - f.mb) mode
    ((ex + f.bias).toNat - 1) * 2 ^ f.mb + k

/-- Rounds a value to a format under IEEE 754: overflow gives an infinity, NaN under R72. -/
def encodeF (f : Fmt) (mode : Rnd) : XV → Nat
  | .nan => f.nanCode
  | .inf n => (if n then f.signBit else 0) + f.infCode
  | .fin n m e => (if n then f.signBit else 0) + min (roundCode f mode m e) f.infCode

/-- Rounds a finite value to a format and limits it to the largest finite value; the flag says whether
the rounded magnitude lay beyond it (R77, Table NUM-7). -/
def encodeSat (f : Fmt) (mode : Rnd) (n : Bool) (m : Nat) (e : Int) : Nat × Bool :=
  let c := roundCode f mode m e
  let beyond := f.infCode ≤ c
  ((if n then f.signBit else 0) + (if beyond then f.infCode - 1 else c), beyond)

/-- Exact product (R78). -/
def mulX : XV → XV → XV
  | .nan, _ => .nan
  | _, .nan => .nan
  | .inf a, .inf b => .inf (a != b)
  | .inf a, .fin b m _ => if m = 0 then .nan else .inf (a != b)
  | .fin a m _, .inf b => if m = 0 then .nan else .inf (a != b)
  | .fin a m e, .fin b k d => .fin (a != b) (m * k) (e + d)

/-- A signed integer from sign and magnitude. -/
def sgn (n : Bool) (m : Nat) : Int := if n then -(m : Int) else m

/-- Exact sum; the sum of two zeros of one sign keeps that sign, every other exact zero is +0 (R75). -/
def addX : XV → XV → XV
  | .nan, _ => .nan
  | _, .nan => .nan
  | .inf a, .inf b => if a = b then .inf a else .nan
  | .inf a, .fin _ _ _ => .inf a
  | .fin _ _ _, .inf b => .inf b
  | .fin a m e, .fin b k d =>
    let q := min e d
    let s := sgn a (m <<< (e - q).toNat) + sgn b (k <<< (d - q).toNat)
    if s = 0 then .fin (a && b) 0 q
    else .fin (s < 0) s.natAbs q

/-- Negation. -/
def negX : XV → XV
  | .nan => .nan
  | .inf n => .inf !n
  | .fin n m e => .fin (!n) m e

/-- Whether a value is finite. -/
def XV.finite : XV → Bool
  | .fin _ _ _ => true
  | _ => false

/-- Three-way comparison: `none` when an operand is NaN. -/
def cmpX (a b : XV) : Option Int :=
  match addX a (negX b) with
  | .fin n m _ => some (if m = 0 then 0 else if n then -1 else 1)
  | .inf n => some (if n then -1 else 1)
  | .nan => match a, b with
    | .inf x, .inf y => if x = y then some 0 else some (if x then -1 else 1)
    | _, _ => none

/-- The value of an FP32 register. -/
def x32 (w : W32) : XV := decodeF f32 w.toNat
/-- An FP32 register rounded to nearest even from a value (R83). -/
def r32 (x : XV) : W32 := BitVec.ofNat 32 (encodeF f32 .rne x)
/-- FP32 add (R83). -/
def addF (a b : W32) : W32 := r32 (addX (x32 a) (x32 b))
/-- FP32 subtract (R83). -/
def subF (a b : W32) : W32 := r32 (addX (x32 a) (negX (x32 b)))
/-- FP32 multiply (R83). -/
def mulF (a b : W32) : W32 := r32 (mulX (x32 a) (x32 b))
/-- FP32 fused multiply-add, one rounding (R83). -/
def macF (a b c : W32) : W32 := r32 (addX (mulX (x32 a) (x32 b)) (x32 c))
/-- The value of a BF16 code. -/
def xb (w : W16) : XV := decodeF bf16 w.toNat
/-- A BF16 code rounded to nearest even from a value (R83). -/
def rb (x : XV) : W16 := BitVec.ofNat 16 (encodeF bf16 .rne x)

/-- Whether an FP32 code is finite. -/
def finite32 (w : W32) : Bool := (x32 w).finite

/-- The smaller (`lt = true`) or larger operand (R83); NaN with anything is the NaN of R72 (R78). Of zeros of two signs
it is a zero, whose sign the manual does not state (log entry 13): `sign` stands there. -/
def minMaxF (lt sign : Bool) (a b : W32) : W32 :=
  match cmpX (x32 a) (x32 b) with
  | none => 0x7FC00000#32
  | some c => if c = 0 then (if a = b then a else if sign then 0x80000000#32 else 0#32)
              else if (c < 0) = lt then a else b

/-! ## Square root, reciprocal, powers and logarithms of two (R159) -/

/-- Integer square root, one result bit per step from bit `n - 1` down. -/
def isqrtStep (x : Nat) : Nat → Nat → Nat
  | 0, r => r
  | n + 1, r => let c := r + 2 ^ n
                isqrtStep x n (if c * c ≤ x then c else r)

/-- floor(sqrt(x)). -/
def isqrt (x : Nat) : Nat := isqrtStep x (Nat.log2 x / 2 + 1) 0

/-- A value m * 2^e with a bit appended that is 1 when it is cut off below, so that one rounding of it
is a rounding of the exact value. -/
def cut (n : Bool) (m : Nat) (exact : Bool) (e : Int) : XV :=
  .fin n (2 * m + (if exact then 0 else 1)) (e - 1)

/-- RECIP (R159). -/
def recipX : XV → XV
  | .nan => .nan
  | .inf n => .fin n 0 0
  | .fin n m e =>
    if m = 0 then .inf n
    else
      let s := Nat.log2 m + 66
      cut n (2 ^ s / m) (2 ^ s % m = 0) (-(s : Int) - e)

/-- SQRT (R159). -/
def sqrtX : XV → XV
  | .nan => .nan
  | .inf n => if n then .nan else .inf false
  | .fin n m e =>
    if m = 0 then .fin n 0 0
    else if n then .nan
    else
      let odd := e % 2 ≠ 0
      let m' := (if odd then 2 * m else m) <<< 80
      let e' := (if odd then e - 1 else e) - 80
      let r := isqrt m'
      cut false r (r * r = m') (e' / 2)

/-- RSQRT (R159). -/
def rsqrtX : XV → XV
  | .nan => .nan
  | .inf n => if n then .nan else .fin false 0 0
  | .fin n m e =>
    if m = 0 then .inf n
    else if n then .nan
    else
      let odd := e % 2 ≠ 0
      let m' := if odd then 2 * m else m
      let e' := if odd then e - 1 else e
      let s := Nat.log2 m' + 80
      let y := isqrt (2 ^ (2 * s) / m')
      cut false y (y * y * m' = 2 ^ (2 * s)) (-(s : Int) - e' / 2)

/-- ln 2 times 2^256. -/
def ln2P : Nat :=
  80260960185991308862233904206310070533990667611589946606122867505419956976171

/-- The Taylor sum of exp(t / 2^256) times 2^256 from term `k` on, `n` terms; `term` is the k-th term. -/
def expSum (t : Nat) : Nat → Nat → Nat → Nat
  | 0, _, _ => 0
  | n + 1, k, term => term + expSum t n (k + 1) (term * t / 2 ^ 256 / (k + 1))

/-- EXP2 (R159), computed to 256 bits before the one rounding. -/
def exp2X : XV → XV
  | .nan => .nan
  | .inf n => if n then .fin false 0 0 else .inf false
  | .fin n m e =>
    if m = 0 then .fin false 1 0
    else if (Nat.log2 m : Int) + e ≥ 9 then (if n then .fin false 0 0 else .inf false)
    else
      let x := sgn n (m <<< (e + 256).toNat)
      let k := x / 2 ^ 256
      let fr := (x % 2 ^ 256).toNat
      if fr = 0 then .fin false 1 k
      else cut false (expSum (fr * ln2P / 2 ^ 256) 70 0 (2 ^ 256)) false (k - 256)

/-- `n` bits of the binary logarithm of y / 2^256, 1 ≤ y / 2^256 < 2, added to `acc`. -/
def logBits : Nat → Nat → Nat → Nat
  | 0, _, acc => acc
  | n + 1, y, acc =>
    let y2 := y * y / 2 ^ 256
    if y2 ≥ 2 ^ 257 then logBits n (y2 / 2) (2 * acc + 1) else logBits n y2 (2 * acc)

/-- LOG2 (R159), computed to 120 fraction bits before the one rounding. -/
def log2X : XV → XV
  | .nan => .nan
  | .inf n => if n then .nan else .inf false
  | .fin n m e =>
    if m = 0 then .inf true
    else if n then .nan
    else
      let l := Nat.log2 m
      let ex := (l : Int) + e
      if m = 2 ^ l then .fin (ex < 0) ex.natAbs 0
      else
        let t := ex * 2 ^ 120 + logBits 120 (m <<< (256 - l)) 0
        let u := 2 * t + 1
        .fin (u < 0) u.natAbs (-121)

/-! ## Element formats (R65 to R70) -/

/-- Geometry of a block-scaled element format (Table NUM-4): bits, exponent bits, mantissa bits, bias,
top exponent. -/
structure Elt where
  bits : Nat
  eb : Nat
  mb : Nat
  bias : Nat
  top : Nat
  deriving DecidableEq, Repr

/-- Table NUM-4 by format code of Table NUM-1. -/
def eltOf : Nat → Option Elt
  | 1 => some ⟨4, 2, 1, 1, 2⟩
  | 2 => some ⟨6, 3, 2, 3, 4⟩
  | 3 => some ⟨8, 4, 3, 7, 8⟩
  | 4 => some ⟨8, 5, 2, 15, 16⟩
  | _ => none

/-- Exponent of the element quantum (Table NUM-4): the smallest subnormal is 2 to this power. -/
def Elt.quantum (f : Elt) : Int := 1 - (f.bias : Int) - f.mb

/-- The signed integer multiple of the quantum that a code stands for (R69, R73 step 1). -/
def Elt.int (f : Elt) (c : Nat) : Int :=
  let ex := c / 2 ^ f.mb % 2 ^ f.eb
  let fr := c % 2 ^ f.mb
  sgn (c / 2 ^ (f.bits - 1) % 2 = 1) (if ex = 0 then fr else (2 ^ f.mb + fr) * 2 ^ (ex - 1))

/-- T2 codes (Table NUM-5, R70). -/
def t2Int : Nat → Int
  | 1 => 1
  | 3 => -1
  | _ => 0

/-- The signed integer of an element code in a format of Table NUM-1 other than BF16 (R73 step 1). -/
def eltInt (fmt c : Nat) : Int :=
  match eltOf fmt with
  | some f => f.int c
  | none => if fmt = 5 then t2Int c else if fmt = 6 then (if c % 256 ≥ 128 then (c % 256 : Int) - 256 else c % 256) else 0

/-- Exponent of the quantum; 0 for T2 and INT8 (R73 step 1). -/
def quantumOf (fmt : Nat) : Int :=
  match eltOf fmt with
  | some f => f.quantum
  | none => 0

/-- Whether a format has scale bytes (Table NUM-1). -/
def blockScaled (fmt : Nat) : Bool := fmt == 1 || fmt == 2 || fmt == 3 || fmt == 4 || fmt == 5

/-- Bits per element (Table NUM-1). -/
def eltBits : Nat → Nat
  | 1 => 4
  | 2 => 6
  | 3 => 8
  | 4 => 8
  | 5 => 2
  | 6 => 8
  | 7 => 16
  | _ => 32

/-- Bytes that hold `n` elements of a format (R68, Table NUM-1). -/
def eltBytes (fmt n : Nat) : Nat := (n * eltBits fmt + 7) / 8

/-- Element `i` of a packed array (R68): little-endian bit order within the bytes. -/
def eltAt (fmt : Nat) (bs : Bytes) (i : Nat) : Nat :=
  let b := eltBits fmt
  at_ bs (i * b / 8) 4 / 2 ^ (i * b % 8) % 2 ^ b

/-- Packs element codes (R68). -/
def packElts (fmt : Nat) (cs : List Nat) : Bytes :=
  natLe (eltBytes fmt cs.length) (cs.foldr (fun c acc => c % 2 ^ eltBits fmt + acc * 2 ^ eltBits fmt) 0)

/-- The FP32 value of an element code with its scale byte (R67, R69; DQBLK, R160). -/
def decodeElt (f : Elt) (c s : Nat) : XV :=
  if s = 255 then .nan
  else .fin (c / 2 ^ (f.bits - 1) % 2 = 1) (f.int c).natAbs (f.quantum + (s : Int) - 127)

/-! ## Conversions (R79 to R81) -/

/-- What one conversion delivers: codes, scale byte of a block, saturations, non-finite values. -/
structure Conv where
  codes : List Nat
  scale : Nat := 0
  sat : Nat := 0
  nonfin : Nat := 0
  deriving DecidableEq, Repr

/-- One element of R79 step 4: code and whether the limit changed it. -/
def quantElt (f : Elt) (s : Nat) (mode : Rnd) (n : Bool) (m : Nat) (e : Int) : Nat × Bool :=
  let c := if m = 0 then 0 else
    let ex := max ((Nat.log2 m : Int) + e + 127 - s) (1 - (f.bias : Int))
    ((ex + f.bias).toNat - 1) * 2 ^ f.mb + roundMag m (e + 127 - s) (ex - f.mb) mode
  let lim := 2 ^ (f.bits - 1) - 1
  ((if n then 2 ^ (f.bits - 1) else 0) + min c lim, lim < c)

/-- R79: 32 FP32 codes to a block-scaled format; `modes` gives each element's rounding. -/
def quantBlock (f : Elt) (xs : List W32) (modes : List Rnd) : Conv :=
  let bad := xs.countP (fun x => !finite32 x)
  if bad ≠ 0 then { codes := xs.map (fun _ => 0), scale := 255, nonfin := bad }
  else
    let amax := xs.foldl (fun a x => max a (x.toNat % 2 ^ 31)) 0
    if amax = 0 then { codes := xs.map (fun _ => 0), scale := 127 }
    else
      let ex : Int := match decodeF f32 amax with
        | .fin _ m e => ((Nat.log2 m : Nat) : Int) + e
        | _ => 0
      let s0 : Int := ex - (f.top : Int) + 127
      let s := (max 0 (min s0 254)).toNat
      let qs := List.zipWith (fun x md => match x32 x with
        | .fin n m e => quantElt f s md n m e
        | _ => (0, false)) xs modes
      { codes := qs.map (·.1), scale := s,
        sat := if s0 > 254 then qs.countP (·.2) else 0 }

/-- Limits an integer to a range; the flag says whether it lay outside. -/
def clampInt (lo hi v : Int) : Int × Bool := (max lo (min v hi), decide (v < lo ∨ hi < v))

/-- Rounds a value to an integer and limits it (Table NUM-7): NaN gives 0, an infinity its limit. -/
def toIntSat (lo hi : Int) (mode : Rnd) : XV → Int × Bool × Bool
  | .nan => (0, false, true)
  | .inf n => (if n then lo else hi, false, true)
  | .fin n m e => let c := clampInt lo hi (sgn n (roundMag m e 0 mode))
                  (c.1, c.2, false)

/-- A 32-bit register as a signed integer. -/
def i32 (w : W32) : Int := w.toInt

/-- Table NUM-7 from an FP32 accumulator (format code 8) or an INT32 accumulator (9) to an unscaled
output: code, saturations, non-finite values. `shift` is the INT32 to INT8 shift. -/
def convScalar (accInt : Bool) (fmt shift : Nat) (mode : Rnd) (a : W32) : Nat × Nat × Nat :=
  if accInt then
    match fmt with
    | 9 => (a.toNat, 0, 0)
    | 8 => (encodeF f32 .rne (.fin (decide (i32 a < 0)) (i32 a).natAbs 0), 0, 0)
    | _ => let c := clampInt (-128) 127 (sgn (decide (i32 a < 0)) (roundMag (i32 a).natAbs (-(shift : Int)) 0 mode))
           ((c.1 % 256).toNat, if c.2 then 1 else 0, 0)
  else
    match fmt with
    | 8 => (a.toNat, 0, if finite32 a then 0 else 1)
    | 7 => match x32 a with
      | .fin n m e => let c := encodeSat bf16 mode n m e
                      (c.1, if c.2 then 1 else 0, 0)
      | x => (encodeF bf16 .rne x, 0, 1)
    | _ => let c := toIntSat (-(2 ^ 31)) (2 ^ 31 - 1) mode (x32 a)
           ((c.1 % 2 ^ 32).toNat, if c.2.1 then 1 else 0, if c.2.2 then 1 else 0)

end Sys2Proof.Machine
end

