-- ==== Sys2Proof/Machine/Check.lean ====
section
/-! DEFINITION. Check.lean: the two run-time checks of the matrix engine (R118 to R124): residues modulo
2^64 − 1, the checksum row, the lane compare, the check vector, the column compare, and the compares of
BF16 with their tolerance. -/
namespace Sys2Proof.Machine
open Sys2Proof

/-- The modulus of the residues. -/
def resM : Nat := 2 ^ 64 - 1

/-- rot(x, e) = (x mod M) × 2^(e mod 64) mod M (R118). -/
def rot (x : Int) (e : Nat) : Nat := (x % (resM : Int)).toNat * 2 ^ (e % 64) % resM

/-- One element as the check sees it: its integer in quanta and its scale byte, 0 for none (R118). -/
abbrev ChkElt := Int × Nat

/-- The checksum row C(k) of a step: over the unmasked lanes' rows (R119). -/
def checkRow (rows : List (List ChkElt)) (k : Nat) : Nat :=
  (rows.map (fun r => let e := r.getD k (0, 0); rot e.1 e.2)).sum % resM

/-- C after a shift step: the residue of lane 127's row leaves, that of the row entering lane 0 enters
(R120). -/
def shiftRow (c : Nat) (gone new : ChkElt) : Nat := (c + resM - rot gone.1 gone.2 + rot new.1 new.2) % resM

/-- The window content W of group `g` of a lane: the exact sum of `n` integer products (R73). -/
def windowOf (a b : List ChkElt) (g n : Nat) : Int :=
  ((List.range n).map (fun i => (a.getD (g * n + i) (0, 0)).1 * (b.getD (g * n + i) (0, 0)).1)).sum

/-- Scale byte of group `g`. -/
def groupScale (a : List ChkElt) (g n : Nat) : Nat := (a.getD (g * n) (0, 0)).2

/-- Left side of the lane compare, from the window contents that the lanes delivered (R119). -/
def laneLeft (rows : List (List ChkElt)) (b : List ChkElt) (n groups : Nat) (w : Nat → Nat → Int) : Nat :=
  ((List.range rows.length).map (fun l =>
    ((List.range groups).map (fun g =>
      rot (w l g) (groupScale (rows.getD l []) g n + groupScale b g n))).sum)).sum % resM

/-- Right side of the lane compare, from the checksum lane's row (R119). -/
def laneRight (row : List Nat) (b : List ChkElt) (kr : Nat) : Nat :=
  ((List.range kr).map (fun k =>
    let e := b.getD k (0, 0)
    rot (row.getD k 0 * e.1) e.2)).sum % resM

/-- Whether the lane compare of a step passes (R119), when the checksum lane's sum is off by `err`. -/
def lanePass (rows : List (List ChkElt)) (row : List Nat) (b : List ChkElt) (n kr : Nat) (w : Nat → Nat → Int)
    (err : Nat) : Bool :=
  laneLeft rows b n (kr / n) w == (laneRight row b kr + err) % resM

/-- Element k of the check vector of a run of columns (R124). -/
def checkVec (cols : List (List ChkElt)) (k : Nat) : Nat :=
  (cols.map (fun c => let e := c.getD k (0, 0); rot e.1 e.2)).sum % resM

/-- Whether the column compare of one lane passes, from the window contents `w j g` that it delivered. -/
def colPass (row : List ChkElt) (cols : List (List ChkElt)) (n kr : Nat) (w : Nat → Nat → Int) : Bool :=
  ((List.range kr).map (fun k =>
      let e := row.getD k (0, 0)
      rot (e.1 * checkVec cols k) e.2)).sum % resM ==
  ((List.range cols.length).map (fun j =>
    ((List.range (kr / n)).map (fun g =>
      rot (w j g) (groupScale row g n + groupScale (cols.getD j []) g n))).sum)).sum % resM

/-! ## BF16 (R121 to R124) -/

/-- An exact finite value m × 2^e. -/
abbrev Dy := Int × Int

/-- Exact sum. -/
def addD (a b : Dy) : Dy :=
  let q := min a.2 b.2
  (a.1 * 2 ^ (a.2 - q).toNat + b.1 * 2 ^ (b.2 - q).toNat, q)

/-- Exact product. -/
def mulD (a b : Dy) : Dy := (a.1 * b.1, a.2 + b.2)

/-- The exact value of a finite BF16 code. -/
def dyOf (c : Nat) : Dy :=
  match decodeF bf16 c with
  | .fin n m e => (sgn n m, e)
  | _ => (0, 0)

/-- floor(log2 |x|) of a non-zero value. -/
def log2D (a : Dy) : Int := (Nat.log2 a.1.natAbs : Int) + a.2

/-- Rounds to the 24-bit grid without a bound on the exponent (R121). -/
def gridRound (a : Dy) : Dy :=
  if a.1 = 0 then a
  else
    let q := log2D a - 23
    (sgn (decide (a.1 < 0)) (roundMag a.1.natAbs a.2 q .rne), q)

/-- Exact sum of a list. -/
def sumD (l : List Dy) : Dy := l.foldl addD (0, 0)

/-- The checksum row, or the check vector, of BF16: each sum rounded once (R121, R124). -/
def checkRowB (rows : List (List Nat)) (k : Nat) : Dy := gridRound (sumD (rows.map (fun r => dyOf (r.getD k 0))))

/-- 2^(floor(log2 Mg) − 22), or 0 for Mg = 0. -/
def tolOf (mg : Dy) : Dy := if mg.1 = 0 then (0, 0) else (1, log2D mg - 22)

/-- Mg of a lane's group: the sum of the magnitudes of its products. -/
def magOf (a b : List Nat) (g n : Nat) : Dy :=
  sumD ((List.range n).map (fun i =>
    let p := mulD (dyOf (a.getD (g * n + i) 0)) (dyOf (b.getD (g * n + i) 0))
    ((p.1.natAbs : Int), p.2)))

/-- |a − b| ≤ tol, exactly. -/
def within (a b tol : Dy) : Bool :=
  let d := addD a (-b.1, b.2)
  decide ((addD ((d.1.natAbs : Int), d.2) (-tol.1, tol.2)).1 ≤ 0)

/-- Whether the lane compare of a BF16 step passes, from the step values G(l) that the lanes delivered
(R121), when the checksum lane's sum is off by `err`. -/
def lanePassB (rows : List (List Nat)) (row : List Dy) (b : List Nat) (n kr : Nat) (gv : List Dy) (err : Dy) : Bool :=
  let right := addD (sumD ((List.range kr).map (fun k => mulD (row.getD k (0, 0)) (dyOf (b.getD k 0))))) err
  let tol := sumD ((List.range (kr / n)).map (fun g => tolOf (sumD (rows.map (fun r => magOf r b g n)))))
  within (sumD gv) right tol

/-- Whether the column compare of one lane of BF16 passes (R124). -/
def colPassB (row : List Nat) (cols : List (List Nat)) (n kr : Nat) (gv : List Dy) : Bool :=
  let left := sumD ((List.range kr).map (fun k => mulD (dyOf (row.getD k 0)) (checkRowB cols k)))
  let tol := sumD (cols.flatMap (fun c => (List.range (kr / n)).map (fun g => tolOf (magOf row c g n))))
  within left (sumD gv) tol

/-- Whether a BF16 code is an infinity or a NaN. -/
def badB (c : Nat) : Bool := decide (c / 128 % 256 = 255)

/-- Whether a step of BF16 rows with a vector has an infinite or NaN product and so is not compared
(R123). -/
def stepSkipped (rows : List (List Nat)) (b : List Nat) (k0 kr : Nat) : Bool :=
  (List.range kr).any (fun i => badB (b.getD (k0 + i) 0) || rows.any (fun r => badB (r.getD (k0 + i) 0)))

end Sys2Proof.Machine
end

