-- ==== Sys2Proof/Machine/Spark.lean ====
section
/-! DEFINITION. Spark.lean: the spark generator, Philox-4×32-10, and its 16-bit draws (R260 to R262). -/
namespace Sys2Proof.Machine
open Sys2Proof

/-- The four words of a counter or of an output. -/
abbrev Quad := W32 × W32 × W32 × W32

/-- The upper and lower 32 bits of a 64-bit product. -/
def hiLo (a b : W32) : W32 × W32 :=
  (BitVec.ofNat 32 (a.toNat * b.toNat / 2 ^ 32), BitVec.ofNat 32 (a.toNat * b.toNat))

/-- One round of R260 under a round key. -/
def philoxRound (k0 k1 : W32) (c : Quad) : Quad :=
  let p0 := hiLo 0xD2511F53#32 c.1
  let p1 := hiLo 0xCD9E8D57#32 c.2.2.1
  (p1.1 ^^^ c.2.1 ^^^ k0, p1.2, p0.1 ^^^ c.2.2.2 ^^^ k1, p0.2)

/-- `n` rounds, the key rising between them (R260). -/
def philoxRounds : Nat → W32 → W32 → Quad → Quad
  | 0, _, _, c => c
  | n + 1, k0, k1, c => philoxRounds n (k0 + 0x9E3779B9#32) (k1 + 0xBB67AE85#32) (philoxRound k0 k1 c)

/-- The 128 output bits of a draw (R261): seed, stream, domain, block position. -/
def spark4 (seed : W64) (stream domain : W32) (p : W64) : Quad :=
  philoxRounds 10 (BitVec.ofNat 32 seed.toNat) (BitVec.ofNat 32 (seed.toNat / 2 ^ 32))
    (BitVec.ofNat 32 p.toNat, BitVec.ofNat 32 (p.toNat / 2 ^ 32), stream, domain)

/-- The 16-bit draw for element index `i` of a domain (R261). -/
def draw16 (seed : W64) (stream domain : W32) (i : Nat) : Nat :=
  let z := spark4 seed stream domain (BitVec.ofNat 64 (i / 8))
  let w := match i % 8 / 2 with
    | 0 => z.1
    | 1 => z.2.1
    | 2 => z.2.2.1
    | _ => z.2.2.2
  w.toNat / (if i % 2 = 0 then 1 else 65536) % 65536

end Sys2Proof.Machine
end

