-- ==== Sys2Proof/Machine/Lane.lean ====
section
/-! DEFINITION. Lane.lean: what the lanes of the matrix engine compute (R66, R73 to R78, R85 to R92): group
values, their entry into an accumulator, K partitions and their combine, and the conversion of output
runs (R103 to R105). -/
namespace Sys2Proof.Machine
open Sys2Proof

/-- Cuts a list into pieces of `n`, at most `fuel` of them. -/
def chunks {α : Type} (n : Nat) : Nat → List α → List (List α)
  | 0, _ => []
  | f + 1, l => if l.isEmpty then [] else l.take n :: chunks n f (l.drop n)

/-- Quotient rounded up. -/
def ceilDiv (a b : Nat) : Nat := (a + b - 1) / b

/-- One operand element: code and scale byte (127 for a format without scales). -/
abbrev Elem := Nat × Nat

/-- One stationary row or broadcast column along K. -/
abbrev OpVec := List Elem

/-- Elements of a packed array with its scale bytes (R67, R68). -/
def unpack (fmt n : Nat) (bs scales : Bytes) : OpVec :=
  (List.range n).map (fun i =>
    (eltAt fmt bs i, if blockScaled fmt then (scales.getD (i / 32) 0).toNat else 127))

/-- Kr of a stationary format (Table ENG-1). -/
def krOf : Nat → Nat
  | 1 => 64
  | 5 => 128
  | 7 => 16
  | _ => 32

/-- Accumulator format of an operand pair (Table NUM-2): FP32 (8) or INT32 (9). -/
def pairAcc (a b : Nat) : Option Nat :=
  if a = 6 ∧ b = 6 then some 9
  else if (a = 1 ∧ b = 1) ∨ (a = 2 ∧ b = 2) ∨ (a = 7 ∧ b = 7) ∨ ((a = 3 ∨ a = 4) ∧ (b = 3 ∨ b = 4)) ∨
    (a = 5 ∧ (b = 1 ∨ b = 3 ∨ b = 4)) then some 8
  else none

/-! ## Group values (R73, R74, R78) -/

/-- A group value: NaN, an infinity, or W × 2^q with the sticky bit of R74. -/
inductive GVal where
  | nan
  | inf (neg : Bool)
  | fin (w : Int) (q : Int) (sticky : Bool)
  deriving DecidableEq, Repr

/-- The window content of a group of integer elements (R73 step 2). -/
def windowSum (fa fb : Nat) (a b : OpVec) : Int :=
  (List.zipWith (fun (x y : Elem) => eltInt fa x.1 * eltInt fb y.1) a b).sum

/-- Group value of a block-scaled or integer pair (R73, R78). -/
def groupFixed (fa fb : Nat) (a b : OpVec) : GVal :=
  let sa := (a.headD (0, 127)).2
  let sb := (b.headD (0, 127)).2
  if (blockScaled fa && sa == 255) || (blockScaled fb && sb == 255) then .nan
  else .fin (windowSum fa fb a b) (quantumOf fa + quantumOf fb + (sa : Int) - 127 + (sb : Int) - 127) false

/-- Group value of BF16 products (R74, R78). -/
def groupBf16 (a b : OpVec) : GVal :=
  let ps := List.zipWith (fun (x y : Elem) => mulX (decodeF bf16 x.1) (decodeF bf16 y.1)) a b
  let isNan := ps.any (fun p => p == .nan)
  let pos := ps.any (fun p => p == .inf false)
  let neg := ps.any (fun p => p == .inf true)
  if isNan || (pos && neg) then .nan
  else if pos then .inf false
  else if neg then .inf true
  else
    let mags := ps.filterMap (fun p => match p with
      | .fin _ m e => if m = 0 then none else some ((Nat.log2 m : Int) + e)
      | _ => none)
    match mags with
    | [] => .fin 0 0 false
    | h :: t =>
      let q := t.foldl max h - 90
      let parts := ps.filterMap (fun p => match p with
        | .fin n m e =>
          if q ≤ e then some (sgn n (m <<< (e - q).toNat), false)
          else some (sgn n (m >>> (q - e).toNat), m % 2 ^ (q - e).toNat != 0)
        | _ => none)
      .fin (parts.map (·.1)).sum q (parts.any (·.2))

/-- Group value of a pair of formats. -/
def groupVal (fa fb : Nat) (a b : OpVec) : GVal := if fa = 7 then groupBf16 a b else groupFixed fa fb a b

/-! ## Entry into an accumulator (R75, R77, R78) -/

/-- Saturating FP32 rounding of a sum (R75, R77): overflow of finite operands gives the largest finite
value; the flag says that it saturated. -/
def roundAcc (mode : Rnd) : XV → W32 × Bool
  | .fin n m e => let c := encodeSat f32 mode n m e
                  (BitVec.ofNat 32 c.1, c.2)
  | x => (r32 x, false)

/-- Enters a group value into an FP32 accumulator (R75, R77, R78). -/
def enterF32 (acc : W32) (g : GVal) : W32 × Bool :=
  match g with
  | .nan => (0x7FC00000#32, false)
  | .inf n => (r32 (addX (x32 acc) (.inf n)), false)
  | .fin w q sticky =>
    if w = 0 then (acc, false)
    else roundAcc (if sticky then .sticky else .rne) (addX (x32 acc) (.fin (decide (w < 0)) w.natAbs q))

/-- Adds to an INT32 accumulator with saturation (R75, R77). -/
def enterI32 (acc : W32) (w : Int) : W32 × Bool :=
  let c := clampInt (-(2 ^ 31)) (2 ^ 31 - 1) (acc.toInt + w)
  (BitVec.ofInt 32 c.1, c.2)

/-- Enters a group value into an accumulator of format `acc` (8 or 9). -/
def enter (accFmt : Nat) (acc : W32) (g : GVal) : W32 × Bool :=
  if accFmt = 9 then
    match g with
    | .fin w _ _ => enterI32 acc w
    | _ => (acc, false)
  else enterF32 acc g

/-- Enters groups one by one in increasing K, counting saturations (R89, R102). -/
def enterAll (accFmt fa fb : Nat) (gs : List (OpVec × OpVec)) (acc : W32) : W32 × Nat :=
  gs.foldl (fun (r : W32 × Nat) g =>
    let e := enter accFmt r.1 (groupVal fa fb g.1 g.2)
    (e.1, r.2 + (if e.2 then 1 else 0))) (acc, 0)

/-- The groups of a row and a column over the K range [k0, k0 + len) (R89). -/
def groupsIn (g k0 len : Nat) (a b : OpVec) : List (OpVec × OpVec) :=
  let cut := fun (v : OpVec) => chunks g (ceilDiv len g) ((v.drop k0).take len)
  List.zip (cut a) (cut b)

/-- The combine of two partitions' entries (R92): FP32 or INT32 with saturation. -/
def combineAcc (accFmt : Nat) (a b : W32) : W32 × Bool :=
  if accFmt = 9 then enterI32 a b.toInt else roundAcc .rne (addX (x32 a) (x32 b))

/-- One entry of a diagonal operation: the exact product enters as a group of one (R109). -/
def diagVal (accFmt fa fb : Nat) (a b : Elem) (init : W32) : W32 × Nat :=
  enterAll accFmt fa fb [([a], [b])] init

/-! ## Partitions (R90, R91) -/

/-- P before R90 (R91): KSPLIT + 1, or from the number of cores and tiles. -/
def wantedP (repro : Bool) (ksplit cores tiles : Nat) : Nat :=
  if repro then ksplit + 1 else min 16 (2 ^ Nat.log2 (max 1 (cores / tiles)))

/-- Kp (R90). -/
def partLen (k p : Nat) : Nat := 128 * ceilDiv k (128 * p)

/-- P after R90: no empty partition. -/
def effP (k p : Nat) : Nat := min p (ceilDiv k (partLen k p))

/-! ## Output of a run of elements (R79 to R82, R103 to R105) -/

/-- What the output steps need of a descriptor. -/
structure OutCfg where
  accFmt : Nat
  fmt : Nat
  sr : Bool
  shift : Nat
  seed : W64
  stream : W32
  drop : Bool
  site : Nat
  keep : Nat
  scale : W32
  deriving DecidableEq, Repr

/-- A converted run: element codes, scale bytes, saturations, non-finite values. -/
structure RunOut where
  codes : List Nat
  scales : List Nat
  sat : Nat
  nonfin : Nat
  deriving DecidableEq, Repr

/-- Rounding mode of output element `i` (R82, Table OPT-1). -/
def outMode (c : OutCfg) (i : Nat) : Rnd :=
  if c.sr then .sr (draw16 c.seed c.stream 0x80000000#32 i) else .rne

/-- The dropout step of element `i` (R105). -/
def dropStep (c : OutCfg) (i : Nat) (v : W32) : W32 × Bool :=
  if !c.drop then (v, false)
  else if draw16 c.seed c.stream (BitVec.ofNat 32 (0x80000010 + c.site)) i < c.keep then
    roundAcc .rne (mulX (x32 v) (x32 c.scale))
  else (0, false)

/-- Converts a run of output elements whose linear indices start at `i0`. -/
def convRun (c : OutCfg) (i0 : Nat) (vs : List W32) : RunOut :=
  let ds := (List.zip (List.range vs.length) vs).map (fun (p : Nat × W32) => dropStep c (i0 + p.1) p.2)
  let dsat := ds.countP (·.2)
  let xs := ds.map (·.1)
  match eltOf c.fmt with
  | some f =>
    let blocks := chunks 32 (ceilDiv xs.length 32) (List.zip (List.range xs.length) xs)
    let outs := blocks.map (fun b => quantBlock f (b.map (·.2)) (b.map (fun p => outMode c (i0 + p.1))))
    { codes := outs.flatMap (·.codes), scales := outs.map (·.scale), sat := dsat + (outs.map (·.sat)).sum,
      nonfin := (outs.map (·.nonfin)).sum }
  | none =>
    let outs := (List.zip (List.range xs.length) xs).map (fun (p : Nat × W32) =>
      convScalar (c.accFmt == 9) c.fmt c.shift (outMode c (i0 + p.1)) p.2)
    { codes := outs.map (·.1), scales := [], sat := dsat + (outs.map (·.2.1)).sum,
      nonfin := (outs.map (·.2.2)).sum }

end Sys2Proof.Machine
end

