-- ==== Sys2Proof/Machine/Packet.lean ====
section
/-! DEFINITION. Packet.lean: packets of the link (R290 to R292), their routing (R295, R296), their
delivery with the peer check (R297), and a port's transmitter (R285 to R289). -/
namespace Sys2Proof.Machine
open Sys2Proof

/-! ## Packets -/

/-- LEN of a packet: 8-byte header and body. -/
def pktLen (p : Packet) : Nat := 8 + p.body.length

/-- The bytes of a packet (Table LNK-4). -/
def pktBytes (p : Packet) : Bytes :=
  natLe 8 (p.ptype % 32 + p.hops % 8 * 2 ^ 5 + p.dstMod % 4096 * 2 ^ 8 + p.dstCh % 32 * 2 ^ 20 +
    p.srcMod % 4096 * 2 ^ 25 + p.srcCh % 32 * 2 ^ 37 + pktLen p % 1024 * 2 ^ 42) ++ p.body

/-- LEN of a packet whose header begins a byte string. -/
def lenOf (bs : Bytes) : Nat := at_ bs 0 8 / 2 ^ 42 % 1024

/-- The packet that a complete byte string holds. -/
def pktOf (bs : Bytes) : Packet :=
  let h := at_ bs 0 8
  { ptype := h % 32, hops := h / 2 ^ 5 % 8, dstMod := h / 2 ^ 8 % 4096, dstCh := h / 2 ^ 20 % 32,
    srcMod := h / 2 ^ 25 % 4096, srcCh := h / 2 ^ 37 % 32, body := bs.drop 8 }

/-- Virtual lane of a packet type (Table LNK-5). -/
def vlOf (ptype : Nat) : Nat :=
  if ptype ≤ 4 then 0 else if ptype = 8 ∨ ptype = 9 then 1 else if ptype = 0x10 then 2 else 3

/-- The address field of READ, STORE, ATOMIC and REDUCE: OFFSET and OSPACE (R291, Table LNK-6). -/
def pktAddr (p : Packet) : Nat := at_ p.body 0 7 % 2 ^ 49

/-- OSPACE of the address field. -/
def pktOspace (p : Packet) : Nat := pktAddr p / 2 ^ 48

/-- TAG of a packet (Table LNK-5, Table LNK-6). -/
def pktTag (p : Packet) : Nat :=
  if p.ptype = 4 ∨ p.ptype = 8 ∨ p.ptype = 9 then at_ p.body 0 4 % 2 ^ 20
  else if p.ptype = 0x10 then at_ p.body 10 3 % 2 ^ 20
  else at_ p.body 8 4 % 2 ^ 20

/-- STATUS of READ_DATA and ACK. -/
def pktStatus (p : Packet) : Nat := at_ p.body 0 4 / 2 ^ 20 % 16

/-- Whether a LEN of `n` matches the type (R291), for a packet of which the first 16 bytes are there; a reserved type
matches none. -/
def lenFits (n : Nat) (p : Packet) : Bool :=
  match p.ptype with
  | 0x01 => n == 20
  | 0x02 =>
    let d := n - 20
    if pktOspace p = 1 then decide (20 < n ∧ d % 32 = 0 ∧ d ≤ 256) else decide (20 < n ∧ d % 64 = 0 ∧ d ≤ 256)
  | 0x03 => n == 40
  | 0x04 => n == 20
  | 0x08 => n == 272
  | 0x09 => n == 24
  | 0x10 => if at_ p.body 6 1 / 8 % 2 = 1 then n == 280 else n == 296
  | 0x18 => n == 64
  | 0x19 => n == 32
  | _ => false

/-- Whether LEN matches the type of a whole packet. -/
def lenOk (p : Packet) : Bool := lenFits (pktLen p) p

/-! ## Routing -/

/-- The ROUTE entry of a module (Table LNK-7). -/
def routeOf (s : State) (m : Nat) : W32 := Tab.get 0 m s.img.route

/-- The line address of a flow key (R295); READ_DATA and ACK carry none and take 0 (log entry 21). -/
def flowLine (p : Packet) : Nat :=
  if p.ptype = 1 ∨ p.ptype = 2 ∨ p.ptype = 3 ∨ p.ptype = 0x10 then pktAddr p / 256 * 256 else 0

/-- The 16-byte flow key (R295). -/
def flowKey (p : Packet) : Bytes :=
  natLe 8 (flowLine p) ++ natLe 2 p.dstMod ++ natLe 1 p.dstCh ++ natLe 1 p.srcCh ++
  natLe 4 (if p.ptype = 8 ∨ p.ptype = 9 then pktTag p else 0)

/-- The output port of a packet: a set bit of PORTS chosen by the flow key (R295). -/
def outPort (ports : W32) (p : Packet) : Option Nat :=
  let set := (bits32 ports).filter (· < 24)
  if set = [] then none else set[(crc32c (flowKey p)).toNat % set.length]?

/-! ## The transmitter of a port -/

/-- Receive buffer of a lane in flits (Table LNK-3). -/
def vlBuffer (v : Nat) : Nat := [96, 160, 192, 32].getD v 0

/-- Credits of a lane (R287). -/
def credits (p : Port) (v : Nat) : Nat :=
  vlBuffer v - (Tab.get 0 v p.sent + 256 - Tab.get 0 v p.acked % 256) % 256

/-- The 10-byte header of a flit (Table LNK-2). -/
def flitHeader (ftype vl : Nat) (start : W8) (seq : Nat) (p : Port) : Bytes :=
  [BitVec.ofNat 8 (ftype + vl * 4), start] ++ natLe 2 seq ++
  natLe 2 (p.rxSeq % 4096 + (if p.rxAny then 0x1000 else 0) + (if p.nak then 0x2000 else 0)) ++
  natLe 1 p.cvl ++ natLe 1 (Tab.get 0 p.cvl p.freed) ++ natLe 2 0

/-- A whole flit: header, 242 bytes of payload, CRC-32C over bytes 0 to 251 (R285). -/
def flitBytes (hdr payload : Bytes) : Bytes :=
  let b := hdr ++ slice payload 0 242
  b ++ natLe 4 (crc32c b).toNat

/-- The next lane, after the last, whose freed count has changed; the last one where none has (R285). -/
def nextCvl (p : Port) : Nat :=
  (((List.range 4).map (fun i => (p.cvl + 1 + i) % 4)).find? (fun v =>
    decide (Tab.get 0 v p.freed ≠ Tab.get 0 v p.reported))).getD p.cvl

/-- Moves CVL on and notes what the flit reports. -/
def turnCvl (p : Port) : Port :=
  let v := nextCvl p
  { p with cvl := v, reported := Tab.set 0 v (Tab.get 0 v p.freed) p.reported }

/-- Port `p`. -/
def portOf (s : State) (p : Nat) : Port := Tab.get {} p s.ports

/-- Puts port `p`. -/
def setPort (p : Nat) (v : Port) (s : State) : State := { s with ports := Tab.set {} p v s.ports }

/-- Changes port `p`. -/
def modPort (p : Nat) (f : Port → Port) (s : State) : State := setPort p (f (portOf s p)) s

/-- Offset of a register of port `p` (R305). -/
def portReg (p off : Nat) : Nat := 0x1100 + 0x40 * p + off

/-- ECC_MOD_STAT.FATAL (R333). -/
def isFatal (s : State) : Bool := bit (gget 0x2000 s) 0

/-! ## Receive buffers and credits (R287) -/

/-- Key of an accepted flit of a lane. -/
def flitKey (lane n : Nat) : Nat := 4 * n + lane

/-- `k` more bytes of an accepted flit are forwarded or consumed; the flit is freed with the last (R287). A flit that
is not listed is from before its port discarded what it held (R304). -/
def releaseSlot (e : Slot × Nat) (s : State) : State :=
  let q := portOf s e.1.port
  let key := flitKey e.1.lane e.1.flit
  let left := Tab.get 0 key q.rxLeft
  if left = 0 then s
  else if left ≤ e.2 then
    setPort e.1.port { q with rxLeft := Tab.set 0 key 0 q.rxLeft,
                              freed := Tab.set 0 e.1.lane ((Tab.get 0 e.1.lane q.freed + 1) % 256) q.freed } s
  else setPort e.1.port { q with rxLeft := Tab.set 0 key (left - e.2) q.rxLeft } s

/-- The receive-buffer bytes of a piece. -/
def pieceHeld (k : Piece) : List (Slot × Nat) :=
  match k.slot with
  | some e => [(e, k.bytes.length)]
  | none => []

/-- Frees the receive-buffer bytes of pieces. -/
def releasePieces (l : List Piece) (s : State) : State := forAll (l.flatMap pieceHeld) releaseSlot s

/-- The bytes of pieces. -/
def pieceBytes (l : List Piece) : Bytes := l.flatMap (·.bytes)

/-- The first `n` bytes of pieces, and the rest. -/
def splitPieces : Nat → List Piece → List Piece × List Piece
  | _, [] => ([], [])
  | n, k :: l =>
    if n = 0 then ([], k :: l)
    else if k.bytes.length ≤ n then
      let r := splitPieces (n - k.bytes.length) l
      (k :: r.1, r.2)
    else ([{ k with bytes := k.bytes.take n }], { k with bytes := k.bytes.drop n } :: l)

/-! ## The transmitted stream (R283) -/

/-- Product in GF(2^10) modulo x^10 + x^3 + 1 (IEEE 802.3 Clause 91; log entry 82). -/
def gfMul (a b : BitVec 10) : BitVec 10 :=
  (List.range 10).foldl (fun acc i =>
    let d := (acc <<< 1) ^^^ (if acc.getLsbD 9 then 0x009#10 else 0)
    if b.getLsbD (9 - i) then d ^^^ a else d) 0

/-- Coefficients, highest first and without the leading 1, of the product of x − α^j for j from 0 to `n` − 1 (α = 2). -/
def rsGenerator : Nat → List (BitVec 10) × BitVec 10
  | 0 => ([], 1)
  | n + 1 =>
    let r := rsGenerator n
    let g := 1#10 :: r.1
    ((List.zipWith (· ^^^ ·) (g.drop 1 ++ [0]) (g.map (gfMul r.2))), gfMul r.2 2)

/-- The 30 parity symbols of RS(544,514): the remainder of the message times x^30 (R283). -/
def rsParity (msg : List (BitVec 10)) : List (BitVec 10) :=
  let g := (rsGenerator 30).1
  msg.foldl (fun reg m =>
    let f := m ^^^ reg.headD 0
    List.zipWith (· ^^^ ·) (reg.drop 1 ++ [0]) (g.map (gfMul f))) (List.replicate 30 0)

/-- The 544 symbols of the codeword that holds 5,140 data bits. -/
def rsCodeword (data : Nat) : List (BitVec 10) :=
  let msg := (List.range 514).map (fun i => BitVec.ofNat 10 (data >>> (10 * i)))
  msg ++ rsParity msg

/-- The symbols of each lane: symbol i of the stream goes to lane i mod 8 (R283); 544 is a multiple of 8. -/
def laneSymbols (cw : List (BitVec 10)) : List (List (BitVec 10)) :=
  (List.range 8).map (fun l => (List.range 68).map (fun k => cw.getD (8 * k + l) 0))

/-- Sends a flit: it joins the data bits of the codewords, and a codeword that is full leaves on the lanes (R283). -/
def sendFlit (p : Nat) (flit : Bytes) (s : State) : State :=
  let q := portOf s p
  let line := q.txLine + leNat flit * 2 ^ q.txBits
  let n := q.txBits + 2048
  let s1 := emit (.flit p flit) s
  if n < 5140 then setPort p { q with txLine := line, txBits := n } s1
  else emit (.codeword p (laneSymbols (rsCodeword (line % 2 ^ 5140))))
    (setPort p { q with txLine := line / 2 ^ 5140, txBits := n - 5140 } s1)

/-! ## Arbitration at a link port (R289, R402, R403) -/

/-- AGE in fabric cycles (Table OBS-7). -/
def arbAge (s : State) : Nat :=
  let a := fld (gget 0x5020 s) 11 0
  if 256 ≤ a ∧ a ≤ 2048 then a else 2048

/-- The die of a port: 0 to 11 on die 0 (Table ARC-2). -/
def dieOfPort (p : Nat) : Nat := p / 12

/-- Frequency of an island in MHz, from its code (R350). -/
def codeMhz (code : Nat) : Nat := 400 + 25 * code

/-- Fabric cycles of a die since a module time. -/
def fabricCycles (s : State) (die : Nat) (t : W64) : Nat :=
  (now s - t.toNat) * codeMhz (Tab.get 0 (47 * die + 32) s.islandF) / 1000

/-- The input of the arbiter for what a chamber injects from a die; forwarded traffic of port p is input 64 + p
(Table OBS-6; log entry 84). -/
def injectInput (ch die : Nat) : Nat := 2 * ch + die

/-- Weight of a source of a link port: LINK_WT of the chamber, 8 for a forwarding port (Table OBS-6). -/
def linkWeight (s : State) (input : Nat) : Nat := if 64 ≤ input then 8 else (chOf s (input / 2)).linkWt

/-- grant() of R403 over inputs with their weights: the credits after it, and the input granted; ties go to the
lowest input. -/
def grant (base : Nat) (ws : List (Nat × Nat)) (credit : Tab Int) : Tab Int × Option Nat :=
  let c1 := ws.foldl (fun t w => Tab.set 0 (base + w.1) (Tab.get 0 (base + w.1) t + (w.2 : Int)) t) credit
  let best := ws.foldl (fun (b : Option Nat) w =>
    match b with
    | none => some w.1
    | some i =>
      let ci := Tab.get 0 (base + i) c1
      let cw := Tab.get 0 (base + w.1) c1
      if ci < cw ∨ (ci = cw ∧ w.1 < i) then some w.1 else b) none
  match best with
  | none => (c1, none)
  | some i => (Tab.set 0 (base + i) (Tab.get 0 (base + i) c1 - ((ws.map (·.2)).sum : Int)) c1, some i)

/-- The credits after `n` further units of 64 B granted to input `i` (R403; a packet is not divided, log entry 84). -/
def charge (base i : Nat) (ws : List (Nat × Nat)) : Nat → Tab Int → Tab Int
  | 0, c => c
  | n + 1, c =>
    let c1 := ws.foldl (fun t w => Tab.set 0 (base + w.1) (Tab.get 0 (base + w.1) t + (w.2 : Int)) t) c
    charge base i ws n (Tab.set 0 (base + i) (Tab.get 0 (base + i) c1 - ((ws.map (·.2)).sum : Int)) c1)

/-- The bytes of a queued packet in hand. -/
def inHand (k : Queued) : Nat := (pieceBytes k.pieces).length

/-- Whether a queued packet can fill the `n` bytes left of a flit, or end in them (R290). -/
def canFill (n : Nat) (k : Queued) : Bool := decide (n ≤ inHand k ∨ k.sent + inHand k = k.len)

/-- The first packet of each input of a queue. -/
def firstOfEach (l : List Queued) : List Queued :=
  l.foldl (fun a k => if a.any (fun j => j.input == k.input) then a else a ++ [k]) []

/-- The packets of which one can begin in `n` bytes of a flit. -/
def beginnable (n : Nat) (l : List Queued) : List Queued := (firstOfEach l).filter (canFill n)

/-- The packet that begins next on a lane (R403): the oldest one that has waited AGE, otherwise by credit; on lane 3,
which Table OBS-6 does not share out, the first. The flag says that it is an age override. -/
def nextPacket (s : State) (p lane n : Nat) (q : Port) : Option (Queued × Tab Int × Bool) :=
  let l := beginnable n (Tab.get [] lane q.queues)
  let old := (l.filter (fun k => decide (arbAge s ≤ fabricCycles s (dieOfPort p) k.since))).foldl
    (fun (b : Option Queued) k => match b with
      | none => some k
      | some j => if k.since.toNat < j.since.toNat then some k else some j) none
  match (if lane = 3 then none else old) with
  | some k => some (k, q.credit, true)
  | none =>
    if lane = 3 then l.head?.map (fun k => (k, q.credit, false))
    else
    let ws := l.map (fun k => (k.input, linkWeight s k.input))
    let g := grant (128 * lane) ws q.credit
    match g.2 with
    | some i => (l.find? (fun k => k.input == i)).map (fun k =>
        (k, charge (128 * lane) i ws ((k.len + 63) / 64 - 1) g.1, false))
    | none => none

/-- Bytes of a chamber's packets that leave on a link (R306, Table OBS-2). -/
def countSent (ch : Option Nat) (n : Nat) (s : State) : State :=
  match ch with
  | some c => bumpCh c 10 n (modCh c (caddPair 0xF08 n) s)
  | none => s

/-- A queue with the first entry equal to `k` replaced, or removed. -/
def putQueued (k : Queued) (new : Option Queued) : List Queued → List Queued
  | [] => []
  | j :: l => if j = k then new.toList ++ l else j :: putQueued k new l

/-- Takes up to `n` bytes of queued packet `k` of a lane; the bytes, and whether the packet ends. -/
def takeFrom (p lane n : Nat) (k : Queued) (s : State) : Bytes × Bool × State :=
  let r := splitPieces n k.pieces
  let bs := pieceBytes r.1
  let k1 := { k with sent := k.sent + bs.length, pieces := r.2 }
  let ended := decide (k1.sent = k1.len)
  let put := putQueued k (if ended then none else some k1)
  (bs, ended, releasePieces r.1 (countSent k.ch bs.length
    (modPort p (fun q => { q with queues := Tab.set [] lane (put (Tab.get [] lane q.queues)) q.queues }) s)))

/-- Fills `n` bytes of a flit's payload from a lane: the packet under way, then packets that can begin (R290). The
bytes, the offset of the first packet that begins, and the state. -/
def fillFlit (p lane : Nat) : Nat → Nat → State → Bytes × Option Nat × State
  | 0, _, s => ([], none, s)
  | fuel + 1, n, s =>
    if n = 0 then ([], none, s)
    else
      let q := portOf s p
      match (Tab.get [] lane q.queues).find? (fun k => decide (0 < k.sent)) with
      | some k =>
        let r := takeFrom p lane n k s
        if r.2.1 then
          let t := fillFlit p lane fuel (n - r.1.length) r.2.2
          (r.1 ++ t.1, t.2.1, t.2.2)
        else (r.1, none, r.2.2)
      | none =>
        match nextPacket s p lane n q with
        | none => ([], none, s)
        | some (k, cr, aged) =>
          let r := takeFrom p lane n k
            (ifdo aged (bump (132 + p) 12 1) (modPort p (fun q => { q with credit := cr }) s))
          if r.2.1 then
            let t := fillFlit p lane fuel (n - r.1.length) r.2.2
            (r.1 ++ t.1, some (242 - n), t.2.2)
          else (r.1, some (242 - n), r.2.2)

/-- Whether a lane has bytes for a flit: its packet under way fills one or ends in it, or a packet can begin. -/
def laneHas (q : Port) (v : Nat) : Bool :=
  let l := Tab.get [] v q.queues
  match l.find? (fun k => decide (0 < k.sent)) with
  | some k => canFill 242 k
  | none => beginnable 242 l != []

/-- Whether a lane can send a flit now: bytes, a credit and room in the replay buffer (R286, R287). -/
def laneReady (q : Port) (v : Nat) : Bool :=
  laneHas q v && decide (0 < credits q v ∧ q.replay.length < 512)

/-- Share of a lane in what lanes 1, 0 and 2 have: 2 : 1 : 1 (R402). -/
def laneShare (v : Nat) : Nat := if v = 1 then 2 else 1

/-- The lane of the next DATA flit (R289 steps 3 and 4), and the lane credits after it; inputs 0, 1 and 2 of the
lanes' arbiter are lanes 1, 0 and 2 (log entry 22). -/
def chooseLane (q : Port) : Option (Nat × Tab Int) :=
  if laneReady q 3 && decide (15 ≤ q.sinceVl3) then some (3, q.credit)
  else
    let order : List Nat := [1, 0, 2]
    let ws := ((List.range 3).filter (fun i => laneReady q (order.getD i 0))).map (fun i => (i, laneShare (order.getD i 0)))
    let g := grant 512 ws q.credit
    g.2.map (fun i => (order.getD i 0, g.1))

/-! ## The transmitter of a port -/

/-- Adds to a 64-bit count of a port, saturating (R305). -/
def portPair (p off n : Nat) (s : State) : State :=
  gsetPair (portReg p off) (min (gpair (portReg p off) s + n) (2 ^ 64 - 1)) s

/-- Sends one DATA flit of lane `v`. -/
def sendData (p v : Nat) (s0 : State) : State :=
  let r := fillFlit p v 62 242 s0
  let s := r.2.2
  let q := portOf s p
  let start : W8 := match r.2.1 with
    | some o => BitVec.ofNat 8 o
    | none => 0xFF
  let q1 := turnCvl q
  let f : TxFlit := { seq := q.txSeq, vl := v, start := start, payload := slice r.1 0 242 }
  let q2 := { q1 with txSeq := (q.txSeq + 1) % 4096, replay := q.replay ++ [f],
                      sent := Tab.set 0 v ((Tab.get 0 v q.sent + 1) % 256) q.sent,
                      sinceVl3 := if v = 3 then 0 else q.sinceVl3 + 1 }
  bump (132 + p) (4 + v) 1 (bump (132 + p) 0 1 (portPair p 0x20 1
    (sendFlit p (flitBytes (flitHeader 1 v start f.seq q1) f.payload) (setPort p q2 s))))

/-- Sends an IDLE flit, which carries ACK, NAK and CRED (R285). -/
def sendIdle (p : Nat) (s : State) : State :=
  let q := turnCvl (portOf s p)
  let q1 := { q with sinceVl3 := q.sinceVl3 + 1 }
  bump (132 + p) 2 1 (sendFlit p (flitBytes (flitHeader 0 0 0xFF 0 q) []) (setPort p q1 s))

/-- Resends a flit of the replay buffer under the header fields of now (R286). -/
def resend (p : Nat) (f : TxFlit) (s : State) : State :=
  let q := turnCvl (portOf s p)
  let q1 := { q with sinceVl3 := q.sinceVl3 + 1,
                     replay := q.replay.map (fun e => if e.seq = f.seq then { e with resends := e.resends + 1 } else e) }
  bump (132 + p) 3 1 (sendFlit p (flitBytes (flitHeader 1 f.vl f.start f.seq q) f.payload) (setPort p q1 s))

/-- Takes the next flit to be resent off the list: with it in the replay buffer still, it is sent again. -/
def resendNext (p seq : Nat) (l : List Nat) (s : State) : State :=
  let s1 := modPort p (fun q => { q with rep := l }) s
  match (portOf s p).replay.find? (fun f => f.seq == seq) with
  | some f => resend p f s1
  | none => s1

/-- Whether a TIME flit is due, which goes before every other flit (R289 step 1, R298). -/
def timeDue (q : Port) (s : State) : Bool := decide (q.nextTime.toNat ≤ now s)

/-- One flit boundary of an ACTIVE port (R289): a replayed flit, a DATA flit, or an IDLE flit while only lane 3 waits for
its 15 flits. `none` where nothing is to be sent, or a TIME flit is due. Under a module-fatal fault only replays leave
(R333). -/
def sendNext (p : Nat) (s : State) : Option State :=
  let q := portOf s p
  if q.st ≠ .active ∨ timeDue q s then none
  else
    match q.rep with
    | seq :: l => some (resendNext p seq l s)
    | [] =>
      if isFatal s then none
      else
        match chooseLane q with
        | some (v, cr) => some (sendData p v (modPort p (fun k => { k with credit := cr }) s))
        | none => if laneReady q 3 then some (sendIdle p s) else none

/-- Sends what port `p` can send, at most `n` flits. -/
def pump (p : Nat) : Nat → State → State
  | 0, s => s
  | n + 1, s =>
    match sendNext p s with
    | some t => pump p n t
    | none => s

/-- Flits enough for every credit, the replay buffer and the IDLE flits between lane-3 flits. -/
def pumpFuel : Nat := 2048

/-- Puts a packet in its lane's queue at a port. -/
def enqueue (p : Nat) (k : Packet) (s : State) : State :=
  let v := vlOf k.ptype
  let e : Queued := { input := injectInput k.srcCh k.die, since := s.time, len := pktLen k,
                      pieces := [{ bytes := pktBytes k, slot := none }],
                      ch := if k.ptype < 0x18 then some k.srcCh else none }
  modPort p (fun q => { q with queues := Tab.set [] v (Tab.get [] v q.queues ++ [e]) q.queues }) s

/-! ## Delivery and injection -/

/-- Whether a pair is in a chamber's peer table (R47). -/
def isPeer (c : Chamber) (m ch : Nat) : Bool := c.peers.contains (m, ch)

/-- The TAG and STATUS field of an answer. -/
def tagStatus (tag status : Nat) : Bytes := natLe 4 (tag + status * 2 ^ 20)

/-- An answer to a packet, from its destination to its source, on the die that received the packet. -/
def answer (s : State) (p : Packet) (ptype : Nat) (body : Bytes) : Packet :=
  { ptype := ptype, hops := 0, dstMod := p.srcMod, dstCh := p.srcCh, srcMod := s.img.moduleId,
    srcCh := p.dstCh, body := body, die := p.die }

/-- The ACK of a packet with a status and an old value (Table LNK-5). -/
def ackOf (s : State) (p : Packet) (status : Nat) (old : W64) : Packet :=
  answer s p 9 (tagStatus (pktTag p) status ++ natLe 4 0 ++ natLe 8 old.toNat)

/-- A packet dropped for its type, its length or its route (R291, R296). -/
def dropPacket (s : State) : State := eventG 0x0E02 [] (gcount 0x1010 1 s)

/-- Whether the packet asks for an answer: a request, SIGNAL or REDUCE. -/
def asks (p : Packet) : Bool := p.ptype == 1 || p.ptype == 2 || p.ptype == 3 || p.ptype == 4 || p.ptype == 0x10

/-- Sends a packet of this module to the queue of its output port (R295). -/
def routeOut (p : Packet) (s : State) : State :=
  match outPort (routeOf s p.dstMod) p with
  | none => dropPacket s
  | some port => pump port pumpFuel (enqueue port p s)

/-- Whether a packet's destination is this module. -/
def isLocal (s : State) (p : Packet) : Bool :=
  bit (routeOf s p.dstMod) 24 || decide (p.dstMod = s.img.moduleId)

/-- Adds a packet to those that wait for their handling. -/
def arrive (p : Packet) (s : State) : State := { s with arrived := s.arrived ++ [p] }

/-- The answer to a packet that the peer check refuses (R297): to the internal path or to a link. A
refused answer on the internal path is itself checked. -/
def refuse (p : Packet) (s : State) : State :=
  let s1 := gcount 0x100C 1 s
  let s2 := ifdo (defined s p.dstCh) (modCh p.dstCh (ccount 0xF00 1)) s1
  let s3 := eventPf p.dstCh 0x0E01 0 [] s2
  if asks p then
    let a := ackOf s3 p 3 0
    if isLocal s3 a then
      if defined s3 a.dstCh && isPeer (chOf s3 a.dstCh) a.srcMod a.srcCh then arrive a s3
      else eventPf a.dstCh 0x0E01 0 [] (ifdo (defined s3 a.dstCh) (modCh a.dstCh (ccount 0xF00 1)) (gcount 0x100C 1 s3))
    else routeOut a s3
  else s3

/-- Delivers a packet on this module: the peer check, from which SLACK and GRANT are exempt (R297). -/
def deliver (p : Packet) (s : State) : State :=
  if p.ptype = 0x18 ∨ p.ptype = 0x19 then arrive p s
  else if defined s p.dstCh && isPeer (chOf s p.dstCh) p.srcMod p.srcCh then arrive p s
  else refuse p s

/-- Injects a packet of this module (R192: traffic to a chamber of this module stays inside it). -/
def inject (p : Packet) (s : State) : State := if isLocal s p then deliver p s else routeOut p s

/-- An ACTIVE port whose receiver has freed flits reports them in an IDLE flit where nothing else is to be sent
(R287, R289 step 5). -/
def reportFreed (port : Nat) (s : State) : State :=
  let q := portOf s port
  if q.st = .active ∧ (List.range 4).any (fun v => decide (Tab.get 0 v q.freed ≠ Tab.get 0 v q.reported)) then
    sendIdle port s
  else s

/-- The receive-buffer bytes of a packet are consumed: flits are freed and reported. -/
def consumed (p : Packet) (s : State) : State :=
  forAll (p.held.map (·.1.port)).eraseDups reportFreed (forAll p.held releaseSlot s)

/-- Takes the oldest arrived packet of a type; what it held of the receive buffers is freed (R287). -/
def takeArrived (ptype : Nat) (s : State) : Option (Packet × State) :=
  match s.arrived.find? (fun p => p.ptype == ptype) with
  | some p => some (p, consumed p { s with arrived := s.arrived.erase p })
  | none => none

/-- Answers in the response queue of a die: those that its owners have put in the lane-1 queues (R288). -/
def responsesWaiting (s : State) (die : Nat) : Nat :=
  ((List.range 24).map (fun p => ((Tab.get [] 1 (portOf s p).queues).filter (fun k =>
    decide (k.input < 64 ∧ k.input % 2 = die))).length)).sum

/-- Whether the response queue of the die that received a packet has room for its answer (R288, log entry 85); an
answer inside the module needs none. -/
def answerRoom (s : State) (p : Packet) : Bool :=
  bit (routeOf s p.srcMod) 24 || decide (p.srcMod = s.img.moduleId) ||
    decide (responsesWaiting s p.die < Config.responseRoom + 1)

end Sys2Proof.Machine
end

