-- ==== Sys2Proof/Machine/Echo.lean ====
section
/-! DEFINITION. Echo.lean: remote addresses, the echo cache, and the requests that a chamber has out
(R192 to R203, R206, R210). -/
namespace Sys2Proof.Machine
open Sys2Proof

/-! ## Remote addresses -/

/-- The line address of a remote address (R192). -/
def lineAddr (ra : Nat) : Nat := ra / 256 * 256

/-- The owner of a remote address: module id and chamber of its peer entry (R192). -/
def ownerOf (c : Chamber) (ra : Nat) : Option (Nat × Nat) := c.peers[ra / 2 ^ 56]?

/-- Whether a remote address names no peer or has a non-zero reserved field (R193). -/
def badRemote (c : Chamber) (ra : Nat) : Bool :=
  (ownerOf c ra).isNone || decide (ra / 2 ^ 49 % 128 ≠ 0)

/-- Code word of the owner's space (R198, R200): 64 B for bulk, 32 B for the gallery. -/
def remoteWord (ra : Nat) : Nat := if ra / 2 ^ 48 % 2 = 1 then 32 else 64

/-! ## Sets, ways and data (R194) -/

/-- Sets of a chamber on a die. -/
def setsOn (s : State) (c : Chamber) (die : Nat) : Nat := echoSize s c die / 4096

/-- Sets of a chamber. -/
def setsOf (s : State) (c : Chamber) : Nat := setsOn s c 0 + setsOn s c 1

/-- Whether a chamber has an echo cache. -/
def hasEcho (s : State) (c : Chamber) : Bool := decide (0 < setsOf s c)

/-- The set of a line address, die 1's sets after die 0's. -/
def setOf (s : State) (c : Chamber) (la : Nat) : Nat := (crc32c (natLe 8 la)).toNat % setsOf s c

/-- The die of a set. -/
def dieOfSet (s : State) (c : Chamber) (g : Nat) : Nat := if g < setsOn s c 0 then 0 else 1

/-- Where a way of a set holds its data: core and slice offset of its 256 B (R194 step 4). -/
def wayLoc (s : State) (c : Chamber) (g w : Nat) : Nat × Nat :=
  let die := dieOfSet s c g
  let set := if die = 0 then g else g - setsOn s c 0
  let p := (16 * set + w) * 256
  let part := echoPart s die
  let core := ((chCores c).filter (fun k => dieOfCore k = die)).getD (p / part) 0
  (core, sliceWin s core + p % part)

/-- Reads the 256 B of a way; `none` where a word of it is uncorrectable. -/
def wayRead (c : Chamber) (g w : Nat) (s : State) : Option Bytes × State :=
  let loc := wayLoc s c g w
  (List.range 8).foldl (fun (r : Option Bytes × State) i =>
    let q := galWord (agent 6) loc.1 (loc.2 + 32 * i) r.2
    match r.1, q.1 with
    | some a, some b => (some (a ++ b), q.2)
    | _, _ => (none, q.2)) (some [], s)

/-- Writes the 256 B of a way. -/
def wayWrite (c : Chamber) (g w : Nat) (bs : Bytes) (s : State) : State :=
  let loc := wayLoc s c g w
  (List.range 8).foldl (fun t i => galPut loc.1 (loc.2 + 32 * i) (slice bs (32 * i) 32) t) s

/-- Counts in the transfer and echo bank of a line's die (Table OBS-2). -/
def bumpEcho (n la i : Nat) (s : State) : State :=
  let c := chOf s n
  bump (66 + (if hasEcho s c then dieOfSet s c (setOf s c la) else leaderDie c)) i 1 s

/-- The READ line of a line address. -/
def readLine (c : Chamber) (la : Nat) : Option Line :=
  c.lines.find? (fun l => l.addr.toNat == la && l.st == .read)

/-- The ACCUM line of a line address. -/
def accumLine (c : Chamber) (la : Nat) : Option Line :=
  c.lines.find? (fun l => l.addr.toNat == la && l.st == .accum)

/-- Removes a line. -/
def dropLine (l : Line) (c : Chamber) : Chamber := { c with lines := c.lines.erase l }

/-- Replaces a line. -/
def putLine (old new : Line) (c : Chamber) : Chamber :=
  { c with lines := c.lines.map (fun l => if l = old then new else l) }

/-! ## Requests (R203, R210) -/

/-- ACK_TMO in ns; 0 acts as 1 ms (Table ECH-8). -/
def ackTmo (c : Chamber) : Nat := 1000000 * max 1 (fld (cget 0x800 c) 15 0)

/-- The first tag from `t` that no outstanding request has (R210, R291). -/
def freeTag (used : List Nat) : Nat → Nat → Nat
  | 0, t => t
  | n + 1, t => if used.contains t then freeTag used n ((t + 1) % 2 ^ 20) else t

/-- A tag for a new request of a chamber. -/
def newTag (c : Chamber) : Nat :=
  let used := c.reqs.map (·.tag) ++ c.oldTags ++ (c.lines.filter (·.due.isSome)).map (·.tag)
  freeTag used used.length c.nextTag

/-- Whether a request must wait for an earlier one to the same line: a reduce packet for an earlier
reduce packet (R203), a fill for a store or atomic (R198). -/
def blocked (earlier : List Req) (k : ReqKind) (la : Nat) : Bool :=
  earlier.any (fun r => lineAddr r.addr.toNat == la &&
    match k with
    | .reduce => r.kind == .reduce
    | .fill => r.kind == .store || r.kind == .atomic || r.kind == .streamStore || r.kind == .ashStore
    | _ => false)

/-- The die from which a request is injected: of the thread that it serves, otherwise of the chamber's leader. -/
def reqDie (c : Chamber) (r : Req) : Nat :=
  match r.waiters with
  | w :: _ => dieOfCore w.loc.core.val
  | [] => leaderDie c

/-- Counts a read request or a reduce packet as it is sent (Tables ECH-8 and OBS-2). -/
def countRequest (n : Nat) (r : Req) (s : State) : State :=
  match r.kind with
  | .fill => modCh n (caddPair 0x820 1) s
  | .reduce => bumpEcho n (lineAddr r.addr.toNat) 7 (modCh n (caddPair 0x828 1) s)
  | _ => s

/-- A request of chamber `n` with tag `tag`: it is sent, or waits for an earlier one. Its entry is the room that the
requester keeps for the response (R288, log entry 85). -/
def request (n : Nat) (r : Req) (s : State) : State :=
  let c := chOf s n
  let wait := blocked c.reqs r.kind (lineAddr r.addr.toNat)
  let r1 := { r with sent := !wait, deadline := BitVec.ofNat 64 (now s + ackTmo c), pkt := { r.pkt with die := reqDie c r } }
  let s1 := setCh n { c with reqs := c.reqs ++ [r1], nextTag := (r.tag + 1) % 2 ^ 20 } s
  if wait then s1 else inject r1.pkt (countRequest n r1 s1)

/-- A packet of chamber `n` to the owner of a remote address. -/
def toOwner (s : State) (n ra ptype : Nat) (body : Bytes) : Packet :=
  let o := (ownerOf (chOf s n) ra).getD (0, 0)
  { ptype := ptype, hops := 0, dstMod := o.1, dstCh := o.2, srcMod := s.img.moduleId, srcCh := n, body := body }

/-- Address field of a packet (R291). -/
def addrField (ra : Nat) : Bytes := natLe 8 (ra % 2 ^ 49)

/-- The requests that `releaseReqs` looks at: those before the request, and the request. -/
def withEarlier : List Req → List Req → List (List Req × Req)
  | _, [] => []
  | e, r :: l => (e, r) :: withEarlier (e ++ [r]) l

/-- Sends the requests of a chamber that nothing blocks any more; their deadlines run from now. -/
def releaseReqs (n : Nat) (s : State) : State :=
  let ready := ((withEarlier [] (chOf s n).reqs).filter (fun (e : List Req × Req) =>
    !e.2.sent && !blocked e.1 e.2.kind (lineAddr e.2.addr.toNat))).map (·.2)
  forAll ready (fun r t =>
    let c := chOf t n
    inject r.pkt (countRequest n r (setCh n { c with reqs := c.reqs.map (fun q =>
      if q = r then { q with sent := true, deadline := BitVec.ofNat 64 (now t + ackTmo c) } else q) } t))) s

/-- The request with a tag. -/
def reqOf (c : Chamber) (tag : Nat) : Option Req := c.reqs.find? (fun r => r.tag == tag)

/-- Whether a request of the operation with a sequence number is unacknowledged, of a kind that its
retirement waits for (R224). -/
def openStores (c : Chamber) (seq : W32) : Bool :=
  c.reqs.any (fun r => r.seq == seq && (r.kind == .store || r.kind == .atomic || r.kind == .streamStore ||
    r.kind == .ashStore))

/-! ## Sending of lines (R202, R203) -/

/-- The reduce packet of a line (Table LNK-6). -/
def reducePkt (s : State) (n la fn : Nat) (epoch : W16) (mask : BitVec 128) (data : Bytes) (tag : Nat) : Packet :=
  let full := mask == BitVec.allOnes 128
  toOwner s n la 0x10
    (natLe 7 (la % 2 ^ 49 + fn * 2 ^ 49 + (if full then 2 ^ 51 else 0)) ++ [0] ++ natLe 2 epoch.toNat ++
     natLe 3 tag ++ natLe 3 0 ++ (if full then [] else natLe 16 mask.toNat) ++ slice data 0 256)

/-- Sends one reduce packet. -/
def sendReduce (n : Nat) (seq : W32) (la fn : Nat) (epoch : W16) (mask : BitVec 128) (data : Bytes) (tag : Nat)
    (s : State) : State :=
  request n { tag := tag, kind := .reduce, addr := BitVec.ofNat 64 la, deadline := 0, seq := seq,
              pkt := reducePkt s n la fn epoch mask data tag } s

/-- An uncorrectable word in an ACCUM line: the line is discarded and the chamber halts (Table ECC-1). -/
def accumBad (n : Nat) (l : Line) (s : State) : State :=
  haltCh n 0xF02 (event n 0xF02 0 [] (modCh n (fun c =>
    cmod 0x1000 (firstCode 0xF02) (caddPair 0x838 1 (dropLine l c))) s))

/-- Sends an ACCUM line under a tag: it becomes DRAINING in its way (R203). -/
def emitLine (n : Nat) (seq : W32) (l : Line) (tag : Nat) (s : State) : State :=
  match wayRead (chOf s n) l.set l.way s with
  | (none, t) => accumBad n l t
  | (some bs, t) =>
    sendReduce n seq l.addr.toNat l.fn l.epoch l.mask bs tag
      (modCh n (putLine l { l with st := .draining, tag := tag, due := none }) t)

/-- Sends an ACCUM line. While an earlier packet for its address is unacknowledged, the line stays ACCUM and is
marked (R195, R203); a line with an empty mask is freed without a packet. -/
def sendLine (n : Nat) (seq : W32) (l : Line) (s : State) : State :=
  let c := chOf s n
  let tag := newTag c
  if l.mask = 0 then modCh n (dropLine l) s
  else if l.due.isSome then s
  else if blocked c.reqs .reduce l.addr.toNat then
    modCh n (fun d => { putLine l { l with due := some seq, tag := tag } d with nextTag := (tag + 1) % 2 ^ 20 }) s
  else emitLine n seq l tag s

/-- Sends the marked lines whose earlier packets are acknowledged (R203). -/
def releaseLines (n : Nat) (s : State) : State :=
  forAll (chOf s n).lines (fun l t =>
    match l.due with
    | some seq => if blocked (chOf t n).reqs .reduce l.addr.toNat then t else emitLine n seq l l.tag t
    | none => t) s

/-! ## Allocation (R201) -/

/-- Victim order of a line (Table ECH-4); `none` for DRAINING. HINT 0 normal, 1 keep, 2 evict-first. -/
def victimRank (l : Line) : Option Nat :=
  match l.st with
  | .draining => none
  | .read => some (if l.hint = 2 then 0 else if l.hint = 1 then 4 else 1)
  | .accum => some (if l.hint = 2 then 2 else if l.hint = 1 then 5 else 3)

/-- The line that an allocation in a set takes: lowest class, least recently used in it. -/
def victim (ls : List Line) : Option Line :=
  (List.range 6).findSome? (fun k =>
    (ls.filter (fun l => victimRank l == some k)).foldl (fun (best : Option Line) l =>
      match best with
      | none => some l
      | some b => if l.stamp < b.stamp then some l else best) none)

/-- The lines that hold ways of a set. -/
def inSet (c : Chamber) (g : Nat) : List Line := c.lines.filter (fun l => l.set == g)

/-- The ways of a set that drain for a waiting allocation. -/
def awaited (s : State) (c : Chamber) (g : Nat) : List Nat :=
  (c.waitAlloc.filter (fun k => setOf s c k.addr.toNat == g)).filterMap (·.way)

/-- Takes a way of a set (R201): an INVALID one or a READ victim's at once. An ACCUM victim is sent and drains in its
way, for which the allocation then waits: first answer the way taken, second the way awaited. Neither is
there where every way is DRAINING or awaited. -/
def takeWay (n g : Nat) (seq : W32) (s : State) : Option Nat × Option Nat × State :=
  let c := chOf s n
  let ls := inSet c g
  let kept := awaited s c g
  match (List.range 16).find? (fun w => !ls.any (fun l => l.way == w) && !kept.contains w) with
  | some w => (some w, none, s)
  | none =>
    match victim (ls.filter (fun l => l.due.isNone && !kept.contains l.way)) with
    | none => (none, none, s)
    | some l =>
      if l.st = .accum then
        let t := bumpEcho n l.addr.toNat 9 (sendLine n seq l s)
        if (inSet (chOf t n) g).any (fun k => k.way == l.way) then (none, some l.way, t) else (some l.way, none, t)
      else (some l.way, none, modCh n (dropLine l) s)

/-- The HINT that a new line of a set records: keep only below 12 keep lines (R201). -/
def hintFor (c : Chamber) (g hint : Nat) : Nat :=
  if hint = 1 ∧ 12 ≤ ((inSet c g).filter (fun l => l.hint == 1 && l.st != .draining)).length then 0 else hint

/-- Adds a line, newest in use. -/
def addLine (n : Nat) (l : Line) (s : State) : State :=
  modCh n (fun c => { c with lines := c.lines ++ [{ l with stamp := c.stamp }], stamp := c.stamp + 1 }) s

/-- Marks a line as used now. -/
def touch (n : Nat) (l : Line) (s : State) : State :=
  modCh n (fun c => { putLine l { l with stamp := c.stamp } c with stamp := c.stamp + 1 }) s

/-! ## Reductions (R199, R200, R206) -/

/-- The combine of Table ECH-3 on one element: old value first. -/
def combine (fn : Nat) (a b : W32) : W32 :=
  match fn with
  | 0 => addF a b
  | 1 => (rb (addX (xb (a.truncate 16)) (xb (b.truncate 16)))).zeroExtend 32
  | 2 => a + b
  | _ => if a.toInt < b.toInt then b else a

/-- Bytes of an element of a function: 2 for BF16 add, otherwise 4. -/
def eltSize (fn : Nat) : Nat := if fn = 1 then 2 else 4

/-- Mask bits of element `i` of a function: one, or a pair. -/
def eltMask (fn i : Nat) : BitVec 128 := if fn = 1 then 1#128 <<< i else 3#128 <<< (2 * i)

/-- The element mask of `n` bytes at offset `off` of a line. -/
def byteMask (off n : Nat) : BitVec 128 := BitVec.ofNat 128 ((2 ^ (n / 2) - 1) * 2 ^ (off / 2))

/-- Combines the masked elements of a contribution into a line's bytes; an element that the line does not
hold yet takes the value exactly. -/
def mergeLine (fn : Nat) (old : Bytes) (have_ : BitVec 128) (mask : BitVec 128) (data : Bytes) : Bytes :=
  let n := eltSize fn
  (List.range (256 / n)).flatMap (fun i =>
    let m := eltMask fn i
    let a := slice old (n * i) n
    let b := slice data (n * i) n
    if mask &&& m = 0 then a
    else if have_ &&& m = 0 then b
    else natLe n (combine fn (BitVec.ofNat 32 (leNat a)) (BitVec.ofNat 32 (leNat b))).toNat)

/-- A contribution or a returned line takes way `w` of its set. -/
def place (n : Nat) (k : Contrib) (w : Nat) (s : State) : State :=
  let c := chOf s n
  let la := k.addr.toNat
  let g := setOf s c la
  let hint := hintFor c g k.hint
  if k.install then
    let d := match readLine c la with
      | some l => dropLine l c
      | none => c
    bumpEcho n la 5 (addLine n { addr := k.addr, st := .read, hint := hint, set := g, way := w }
      (wayWrite c g w k.data (setCh n d s)))
  else
    bumpEcho n la 6 (addLine n
      { addr := k.addr, st := .accum, fn := k.fn, epoch := BitVec.ofNat 16 (cget 0x808 c).toNat,
        mask := k.mask, hint := hint, lastAdd := s.time, set := g, way := w }
      (wayWrite c g w (mergeLine k.fn (List.replicate 256 0) 0 k.mask k.data) s))

/-- An allocation waits, behind those that wait already. -/
def waitFor (n : Nat) (k : Contrib) (s : State) : State :=
  modCh n (fun c => { c with waitAlloc := c.waitAlloc ++ [k] }) s

/-- Allocates a line for a contribution or a returned line (R201); one whose victim drains waits for that way, and one
that finds every way DRAINING for any. -/
def allocate (n : Nat) (k : Contrib) (s : State) : State :=
  let c := chOf s n
  let g := setOf s c k.addr.toNat
  match k.way with
  | some w => if (inSet c g).any (fun l => l.way == w) then waitFor n k s else place n k w s
  | none =>
    match takeWay n g k.seq s with
    | (some w, _, t) => place n k w t
    | (none, w, t) => waitFor n { k with way := w } t

/-- One contribution to one line (R199): merged into its ACCUM line, or into a new one after a line of
another function or an older epoch has been sent; a chamber without an echo cache sends it at once. Contributions
to one line keep their order. -/
def contribute (n : Nat) (k : Contrib) (s : State) : State :=
  let c := chOf s n
  let la := k.addr.toNat
  if !hasEcho s c then
    sendReduce n k.seq la k.fn (BitVec.ofNat 16 (cget 0x808 c).toNat) k.mask
      (mergeLine k.fn (List.replicate 256 0) 0 k.mask k.data) (newTag c) s
  else
    let s1 := bumpEcho n la 3 s
    if c.waitAlloc.any (fun j => !j.install && j.addr == k.addr) then waitFor n k s1
    else
      match accumLine c la with
      | none => allocate n k s1
      | some l =>
        if l.fn = k.fn ∧ l.epoch.toNat = (cget 0x808 c).toNat then
          match wayRead c l.set l.way s1 with
          | (none, t) => accumBad n l t
          | (some bs, t) =>
            let l1 := { l with mask := l.mask ||| k.mask, lastAdd := t.time }
            touch n l1 (wayWrite c l.set l.way (mergeLine k.fn bs l.mask k.mask k.data) (modCh n (putLine l l1) t))
        else
          let t := sendLine n k.seq l s1
          if (accumLine (chOf t n) la).isSome then waitFor n k t else allocate n k t

/-- Retries the allocations that wait for a way, in order. -/
def retryAlloc (n : Nat) (s : State) : State :=
  let ks := (chOf s n).waitAlloc
  forAll ks (fun k => if k.install then allocate n k else contribute n k) (modCh n (fun c => { c with waitAlloc := [] }) s)

/-- Whether a thread's contribution still waits to enter its line (R153, R201). -/
def openAdd (c : Chamber) (loc : Loc) (i : Nat) : Bool := c.waitAlloc.any (fun k => k.threads.contains (loc, i))

/-! ## Reads (R196, R197) -/

/-- A remote load of bytes of one line: its data where a READ line holds it, otherwise a fill, which it shares with
earlier loads unless the chamber has stored to the line since (R150, R196). An
uncorrectable READ line becomes INVALID and the load misses (Table ECC-1). -/
def remoteLoad (n : Nat) (seq : W32) (ra hint : Nat) (w : Waiter) (s : State) : Option Bytes × State :=
  let c := chOf s n
  let la := lineAddr ra
  let s1 := if hasEcho s c then bumpEcho n la 3 s else s
  let miss := fun (t : State) =>
    let d := chOf t n
    match d.reqs.find? (fun r => r.kind == .fill && r.joinable && r.addr.toNat == la) with
    | some r =>
      setCh n { d with reqs := d.reqs.map (fun q => if q = r then { q with waiters := q.waiters ++ [w] } else q) } t
    | none =>
      let tag := newTag d
      request n { tag := tag, kind := .fill, addr := BitVec.ofNat 64 la, deadline := 0, seq := seq,
                  pkt := toOwner t n la 1 (addrField la ++ natLe 4 tag), waiters := [w], hint := hint } t
  match readLine c la with
  | none => (none, miss s1)
  | some l =>
    match wayRead c l.set l.way s1 with
    | (none, t) => (none, miss (event n 0xF03 0 [] (modCh n (dropLine l) t)))
    | (some bs, t) => (some (slice bs w.off w.len), bumpEcho n la 4 (touch n l (modCh n (caddPair 0x818 1) t)))

/-- Installs a returned line as READ (R196, R197, R201); one to which the chamber has stored since its request is only
delivered (R198). -/
def installLine (n : Nat) (r : Req) (data : Bytes) (s : State) : State :=
  let c := chOf s n
  if !hasEcho s c then s
  else if !r.install then bumpEcho n r.addr.toNat 10 s
  else if bit (cget 0x800 c) 16 || !r.joinable then s
  else
    allocate n { seq := r.seq, fn := 0, addr := r.addr, hint := r.hint, mask := 0, data := data, install := true } s

/-! ## Plain stores and atomics (R198) -/

/-- A remote store or atomic invalidates the chamber's READ line for its line (R198), also one that waits to be
installed; a fill on its way is no longer shared (R150). -/
def dropRead (n la : Nat) (s : State) : State :=
  modCh n (fun c => { c with
    lines := c.lines.filter (fun l => !(l.addr.toNat == la && l.st == .read)),
    waitAlloc := c.waitAlloc.filter (fun k => !(k.install && k.addr.toNat == la)),
    reqs := c.reqs.map (fun r => if r.kind = .fill ∧ r.addr.toNat = la then { r with joinable := false } else r) }) s

/-- Sends one STORE packet of whole code words; `ws` names the threads whose store it is. -/
def remoteStore (n : Nat) (seq : W32) (ra : Nat) (data : Bytes) (kind : ReqKind) (stream : Nat) (s : State)
    (ws : List Waiter := []) : State :=
  let s1 := dropRead n (lineAddr ra) s
  let tag := newTag (chOf s1 n)
  request n { tag := tag, kind := kind, addr := BitVec.ofNat 64 ra, deadline := 0, seq := seq, stream := stream, waiters := ws,
              pkt := toOwner s1 n ra 2 (addrField ra ++ natLe 4 tag ++ data) } s1

/-- Sends one ATOMIC packet (Table LNK-5). -/
def remoteAtomic (n : Nat) (seq : W32) (ra func : Nat) (operand compare : W64) (ws : List Waiter) (s : State) : State :=
  let s1 := dropRead n (lineAddr ra) s
  let tag := newTag (chOf s1 n)
  request n { tag := tag, kind := .atomic, addr := BitVec.ofNat 64 ra, deadline := 0, seq := seq, waiters := ws,
              pkt := toOwner s1 n ra 3 (addrField ra ++ natLe 4 (tag + func * 2 ^ 20) ++ natLe 4 0 ++
                natLe 8 operand.toNat ++ natLe 8 compare.toNat) } s1

/-! ## Discards and status (R211, R212) -/

/-- Discards the ACCUM lines whose LAST_ADD is at or after a time; the count. -/
def discardSince (t0 : W64) (c : Chamber) : Nat × Chamber :=
  let hit := fun (l : Line) => l.st == .accum && decide (t0.toNat ≤ l.lastAdd.toNat)
  ((c.lines.filter hit).length, { c with lines := c.lines.filter (fun l => !hit l) })

/-- Whether a contribution of an operation still waits for a way (R201, R224). -/
def openContribs (c : Chamber) (seq : W32) : Bool := c.waitAlloc.any (fun k => k.seq == seq && !k.install)

end Sys2Proof.Machine
end

