-- ==== Sys2Proof/Machine/Retire.lean ====
section
/-! DEFINITION. Retire.lean: counters and what waits on them (R227, R228, R242), retirement and its
records (R224, R225, R277), the ash ring (R272), and how an operation fails (R189, R232). -/
namespace Sys2Proof.Machine
open Sys2Proof

/-! ## Operations in flight -/

/-- The operation in flight with a sequence number. -/
def opOf (c : Chamber) (seq : W32) : Option Op := c.ops.find? (fun o => o.seq == seq)

/-- Changes the operation with a sequence number. -/
def modOp (seq : W32) (f : Op → Op) (c : Chamber) : Chamber :=
  { c with ops := c.ops.map (fun o => if o.seq = seq then f o else o) }

/-- Changes an operation of chamber `n`. -/
def setOp (n : Nat) (seq : W32) (f : Op → Op) (s : State) : State := modCh n (modOp seq f) s

/-- An operation of a type that is executing, with its chamber. -/
def executing (s : State) (n : Nat) (seq : W32) (types : List Nat) : Option Op :=
  match opOf (chOf s n) seq with
  | some o => if o.state = .executing ∧ types.contains (opType o) then some o else none
  | none => none

/-- The work of an operation is complete: it enters RETIRING (R224). -/
def markRetiring (n : Nat) (seq : W32) (s : State) : State :=
  setOp n seq (fun o => { o with state := .retiring, ended := s.time }) s

/-- DONE_CNT, DONE_INC, TAG and FLAGS (Table OPS-1). -/
def doneCnt (o : Op) : Nat := at_ o.desc 0x04 2
/-- The increment of a retirement. -/
def doneInc (o : Op) : Nat := at_ o.desc 0x06 2
/-- FLAGS.BARRIER. -/
def barrier (o : Op) : Bool := decide (at_ o.desc 1 1 % 2 = 1)
/-- FLAGS.COMPLETE. -/
def wantsRecord (o : Op) : Bool := decide (at_ o.desc 1 1 / 2 % 2 = 1)

/-! ## Counters (R227, R242, R243) -/

/-- Counter `k` of a chamber. -/
def counterOf (c : Chamber) (k : Nat) : W32 := Tab.get 0 k c.counters

/-- INFLIGHT of a stage (R242). -/
def inflight (f b : W32) : Nat := if 2 ^ 31 ≤ (f - b).toNat then 0 else min 255 (f - b).toNat

/-- Recomputes PIP_MB_k of stage `k` if it tracks counter `cnt` (R242, R243). -/
def trackStage (n cnt k : Nat) (s : State) : State :=
  let c := chOf s n
  let st := cget (0xC40 + 0x20 * k) c
  if bit st 12 ∧ (fld st 11 0 = cnt ∨ fld st 27 16 = cnt) then
    let mb := cget (0xC44 + 0x20 * k) c
    let v := inflight (counterOf c (fld st 11 0)) (counterOf c (fld st 27 16))
    let beyond := decide (fld mb 7 0 ≤ 64 ∧ 64 < v)
    let m1 := setFld (setFld mb 7 0 v) 15 8 (max (fld mb 15 8) v)
    let s1 := setCreg n (0xC44 + 0x20 * k) (if beyond then setBit m1 16 true else m1) s
    ifdo beyond (event n 0xC03 0 []) s1
  else s

/-- Gives counter `k` of chamber `n` a value; every change recomputes the stages that use it. -/
def putCounter (n k : Nat) (v : W32) (s : State) : State :=
  let c := chOf s n
  forAll (List.range c.alcoves) (trackStage n k)
    (bump (64 + leaderDie c) 11 1 (setCh n { c with counters := Tab.set 0 k v c.counters } s))

/-- Whether (value − target) mod 2^32 < 2^31 (R228, R265). -/
def reached (v target : W32) : Bool := decide ((v - target).toNat < 2 ^ 31)

/-- Whether the counter of a WAIT meets its target. -/
def waitHolds (c : Chamber) (o : Op) : Bool :=
  reached (counterOf c (at_ o.desc 0x10 2)) (BitVec.ofNat 32 (at_ o.desc 0x14 4))

/-! ## Retirement (R224, R225, R277) -/

/-- Code of a status (Table OPS-4). -/
def statusCode : Status → Nat
  | .ok => 0 | .poison => 1 | .fault => 2 | .refused => 3 | .cancelled => 4 | .timeout => 5

/-- The completion record (Table OPS-5); `stall` is its feed-stall and damper-withheld time. -/
def completionRec (o : Op) (st : Status) (time : Nat) (stall : Nat) : Bytes :=
  natLe 2 0xB01 ++ natLe 1 (statusCode st) ++
  natLe 1 ((if o.sat ≠ 0 ∨ o.satFlag then 1 else 0) + (if o.nonfin ≠ 0 then 2 else 0) + (if o.skip then 4 else 0)) ++
  natLe 4 o.seq.toNat ++ natLe 8 time ++ slice o.desc 2 2 ++ natLe 1 (opType o) ++ natLe 1 o.list ++
  natLe 4 (execTime o) ++ natLe 4 stall ++ List.replicate 36 0

/-- The smoke record (Table OPT-7). -/
def smokeRec (o : Op) (st : Status) (time : Nat) : Bytes :=
  natLe 2 0xD01 ++ natLe 1 (statusCode st) ++ natLe 1 (opType o) ++ natLe 4 o.seq.toNat ++ natLe 8 time ++
  natLe 8 o.nonfin ++ natLe 8 o.sat ++ List.replicate 32 0

/-- The records of a retirement: the smoke record (R277), and the completion record (R224). Completion of a matrix
operation reports a stall time that the model leaves free (log entry 24). -/
def retireRecords (n : Nat) (o : Op) (st : Status) (s : State) : State :=
  let smoke := decide (o.nonfin ≠ 0 ∨ o.sat ≠ 0) && st != .cancelled
  let s1 := ifdo smoke (raiseRec (ringOf s n) 0xD01 false (smokeRec o st (now s))) s
  let rec_ := wantsRecord o || st == .fault || st == .poison || st == .refused || st == .timeout
  if rec_ && st != .cancelled then
    let f := if isMatrix (opType o) then fresh s1 else (0, s1)
    raiseRec (ringOf f.2 n) 0xB01 false (completionRec o st (now f.2) (f.1.toNat % 2 ^ 32)) f.2
  else s1

/-- Retirement of one operation with a status: it leaves flight, the counter increments when the status
is OK, LNT_CSEQ takes a SNAPSHOT's number (Table OBS-8), the records are written, OPS_HEAD advances. -/
def retireOp (n : Nat) (o : Op) (st : Status) (s : State) : State :=
  let c := chOf s n
  let c1 := { c with ops := c.ops.filter (fun q => q.seq != o.seq) }
  let c2 := if st = .ok then c1 else markStuck o c1
  let c3 := if o.banked ∧ st = .ok then caddPair (0xC58 + 0x20 * o.list) 1 c2 else c2
  let c4 := if unchecked o then ccount 0x520 1 c3 else if opType o = 0xA ∧ st = .ok then cset 0x1304 o.seq c3 else c3
  let s1 := countRetired n [o] (setCh n c4 s)
  let s2 := if st = .ok ∧ doneInc o ≠ 0 then
      putCounter n (doneCnt o) (counterOf (chOf s1 n) (doneCnt o) + BitVec.ofNat 32 (doneInc o)) s1
    else s1
  modCh n (advanceHead o.list) (retireRecords n o st s2)

/-! ## Failure of an operation (R189, R232) -/

/-- The chamber halts for a cause in one operation, which does not count as cancelled (R232): it is in RETIRING. -/
def haltFor (n : Nat) (seq : W32) (code : Nat) (s : State) : State :=
  haltCh n code (setOp n seq (fun o => { o with state := .retiring }) s)

/-- A job-fatal event of an operation: fault registers, event, retirement with the operation's own
status, and the halt of the chamber. A failing TRANSFER's stream is cancelled (log entry 25). -/
def failOp (n : Nat) (seq : W32) (st : Status) (code : Nat) (details : List Nat) (reg : Chamber → Chamber)
    (s : State) : State :=
  let s1 := modCh n reg s
  match opOf (chOf s1 n) seq with
  | some o =>
    if o.state = .retiring then haltCh n code (event n code seq.toNat details s1)
    else
      let s2 := ifdo (opType o == 4) (copyStream n (streamOf o)) (modCh n (cancelStream o) s1)
      retireOp n { o with ended := s.time } st (event n code seq.toNat details (haltFor n seq code s2))
  | none => haltCh n code (event n code seq.toNat details s1)

/-- An executing operation that a halt stopped no longer ago than the 1 µs of R232 and the 30 ns in which compares
still deliver (R125, R130). -/
def stoppedOp (s : State) (n : Nat) (seq : W32) : Option Op :=
  let c := chOf s n
  if now s ≤ c.haltAt.toNat + 1030 then c.stopped.find? (fun o => o.seq == seq) else none

/-- A fault of an operation that a halt has stopped meanwhile: it retires with its own status, and the fault registers
keep the first fault (Table OPS-8). -/
def lateFault (n : Nat) (o : Op) (st : Status) (code : Nat) (reg : Chamber → Chamber) (s : State) : State :=
  let first := fld (creg s n 0x4) 31 16
  let s1 := modCh n (fun c =>
    { (if first / 256 = code / 256 then c else reg c) with stopped := c.stopped.filter (fun q => q.seq != o.seq) }) s
  retireRecords n o st (event n code o.seq.toNat [] s1)

/-- Status of an operation whose access faulted (R172, R189, Table ECC-1). -/
def faultStatus (code : Nat) : Status := if code = 0xF02 ∨ code = 0x907 then .poison else .fault

/-- An access fault of an agent that is not a thread (R189). -/
def accessFault (n : Nat) (seq : W32) (agent : Nat) (e : MErr) (s : State) : State :=
  failOp n seq (faultStatus e.code) e.code [] (memFault e seq.toNat agent) s

/-! ## The ash ring (R271, R272) -/

/-- Units of the ring. -/
def ashSize (c : Chamber) : Nat := 2 ^ fld (cget 0xE4C c) 4 0

/-- Free units of the ring. -/
def ashFree (c : Chamber) : Nat :=
  let used := (cget 0xE50 c - counterOf c (fld (cget 0xE40 c) 19 8)).toNat
  ashSize c - used

/-- A record with its CRC (Table OPT-5). -/
def ashSealed (bs : Bytes) : Bytes := bs ++ natLe 4 (crc32c bs).toNat

/-- The PAD record that fills `units` units to the end of the ring. -/
def padRec (units : Nat) : Bytes := ashSealed (natLe 2 0 ++ natLe 2 units ++ List.replicate 56 0)

/-- Sends the chunks of a record to a remote ring, none of them crossing a line. -/
def ashRemote (n : Nat) (seq : W32) (addr : Nat) (bs : Bytes) (s : State) : State :=
  forAll (granules 256 addr bs.length) (fun g t =>
    let lo := max addr g
    remoteStore n seq lo (slice bs (lo - addr) (min (addr + bs.length) (g + 256) - lo)) .ashStore 0 t) s

/-- Writes a record's bytes at the write position, by ASH_CFG.SPACE (R271). -/
def ashWrite (n : Nat) (seq : W32) (bs : Bytes) (s : State) : Res Unit :=
  let c := chOf s n
  let addr := cpair 0xE44 c + 64 * ((cget 0xE50 c).toNat % ashSize c)
  match fld (cget 0xE40 c) 2 1 with
  | 0 => bulkStore n (agent 1) addr bs s
  | 1 =>
    if canIssue s (chFn s n) then (.ok (), hostWrite (chFn s n) addr bs s)
    else (.error { code := 0x1103 }, s)
  | _ =>
    if badRemote c addr then (.error { code := 0xA01, addr := addr, space := 3, write := true }, s)
    else (.ok (), ashRemote n seq addr bs s)

/-- Writes the waiting records that fit, oldest first (R272). -/
def ashDrain (n : Nat) : Nat → State → State
  | 0, s => s
  | fuel + 1, s =>
    let c := chOf s n
    match c.ash with
    | [] => modCh n (fun d => { d with ashFrom := none }) s
    | r :: rest =>
      let body := if r.isSeal then splice r.bytes 0x10 (natLe 8 (now s)) else r.bytes
      let units := (body.length + 4) / 64
      let left := ashSize c - (cget 0xE50 c).toNat % ashSize c
      let pad := decide (left < units)
      if ashFree c < (if pad then left else units) then
        modCh n (fun d => { d with ashFrom := some (d.ashFrom.getD s.time) }) s
      else
        match ashWrite n r.seq (if pad then padRec left else ashSealed body) s with
        | (.error e, t) => accessFault n r.seq 1 e t
        | (.ok (), t) =>
          let d := cmod 0xE50 (fun w => w + BitVec.ofNat 32 (if pad then left else units)) (chOf t n)
          let d1 := { d with ashFrom := none }
          let d2 := if pad then d1
            else if r.isSeal then { d1 with ash := rest, stepDeltas := 0, stepUpdates := 0, stepSkips := 0, sealWr := cget 0xE50 d1 }
            else caddPair 0xE5C 1 { d1 with ash := rest, stepDeltas := d1.stepDeltas + 1 }
          ashDrain n fuel (setCh n d2 t)

/-- Tries to write every waiting record; each needs at most a PAD record beside itself. -/
def ashTry (n : Nat) (s : State) : State := ashDrain n (2 * (chOf s n).ash.length + 1) s

/-! ## What a change completes -/

/-- Whether a reduce packet or a line of the chamber that records epoch `e` is still in the cache or
unacknowledged (R255). -/
def epochOpen (c : Chamber) (e : W16) : Bool :=
  c.lines.any (fun l => l.epoch == e && l.st != .read) ||
  c.reqs.any (fun r => r.kind == .reduce && at_ r.pkt.body 8 2 == e.toNat)

/-- Whether an executing operation that has done its work needs nothing more to enter RETIRING. -/
def finished (c : Chamber) (o : Op) : Bool :=
  let wait := openStores c o.seq || openContribs c o.seq || c.ash.any (fun r => r.seq == o.seq)
  match opType o with
  | 9 => !epochOpen c (BitVec.ofNat 16 (fld (cget 0x808 c) 15 0))
  | 0xC => !(o.waits.any (fun t => c.reqs.any (fun r => r.tag == t)))
  | _ => !wait

/-- What the completion of an operation changes before it enters RETIRING: the epoch advance (R255), the
sealed step (R274), a stream that is DONE (R237). -/
def finishEffect (n : Nat) (o : Op) (s : State) : State :=
  match opType o with
  | 9 =>
    modCh n (fun c =>
      let next := fld (cget 0xC0C c) 31 16
      cmod 0xC0C (fun w => setBit w 0 false)
        (csetPair 0xC10 (now s) (cset 0x808 (BitVec.ofNat 32 next) c))) s
  | 0xB => modCh n (fun c => cset 0xE54 (cget 0xE50 c) (cset 0xE58 (BitVec.ofNat 32 (at_ o.desc 0x10 4)) c)) s
  | 4 =>
    copyStream n (streamOf o) (modCh n (fun c =>
      let t := Tab.get {} (streamOf o) c.streams
      { c with streams := Tab.set {} (streamOf o) { t with st := 3 } c.streams }) s)
  | _ => s

/-- Retires the executing WAITs whose condition holds (R228) and moves finished operations to RETIRING,
one after another. -/
def settleLoop (n : Nat) : Nat → State → State
  | 0, s => s
  | fuel + 1, s =>
    let t := ashTry n s
    let c := chOf t n
    match c.ops.find? (fun o => o.state == .executing && opType o == 8 && waitHolds c o) with
    | some o => settleLoop n fuel (retireOp n { o with ended := t.time } .ok (bump (64 + leaderDie c) 12 1 t))
    | none =>
      match c.ops.find? (fun o => o.state == .executing && o.begun && finished c o) with
      | some o => settleLoop n fuel (markRetiring n o.seq (finishEffect n o t))
      | none => t

/-- Everything that a change of a counter, an answer or a finished piece of work completes at once. -/
def settle (n : Nat) (s : State) : State := settleLoop n ((chOf s n).ops.length + 1) s

/-- A change of counter `k` by any writer, with every wait on it evaluated after it (R227). -/
def changeCounter (n k : Nat) (v : W32) (s : State) : State := settle n (putCounter n k v s)

end Sys2Proof.Machine
end

