-- ==== Sys2Proof/Machine/Place.lean ====
section
/-! DEFINITION. Place.lean: the dispatcher's fit test and the placement of a thread block (R134, R135,
R169). -/
namespace Sys2Proof.Machine
open Sys2Proof

/-- GROUPS, BLOCKS, SPILL and SHARED of a KERNEL (Table THR-1). -/
def kGroups (o : Op) : Nat := at_ o.desc 0x2C 1
/-- Blocks of a KERNEL. -/
def kBlocks (o : Op) : Nat := at_ o.desc 0x28 4
/-- Spill area per thread. -/
def kSpill (o : Op) : Nat := at_ o.desc 0x2E 2
/-- Shared area of a block. -/
def kShared (o : Op) : Nat := at_ o.desc 0x30 4

/-- The resident group at a core and slot. -/
def groupAt (s : State) (core slot : Nat) : Option Group := Tab.get none (16 * core + slot) s.groups

/-- Puts or removes a resident group. -/
def setGroup (core slot : Nat) (g : Option Group) (s : State) : State :=
  { s with groups := Tab.set none (16 * core + slot) g s.groups }

/-- The free slots of a core, ascending. -/
def freeSlots (s : State) (core : Nat) : List Nat := (List.range 16).filter (fun k => (groupAt s core k).isNone)

/-- Free bytes of a core's thread region (R169). -/
def freeRegion (s : State) (core : Nat) : Nat :=
  0x10000 - ((s.allocs.filter (fun a => a.core == core)).map (·.len)).sum

/-- Whether `len` bytes at `off` of a core's thread region are free. -/
def regionFree (s : State) (core off len : Nat) : Bool :=
  decide (off + len ≤ 0x10000) &&
  s.allocs.all (fun a => a.core != core || decide (a.off + a.len ≤ off) || decide (off + len ≤ a.off))

/-- Lowest free offset for `len` bytes in a core's thread region (log entry 26). -/
def firstFit (s : State) (core len : Nat) : Option Nat :=
  let ends := 0 :: (s.allocs.filter (fun a => a.core == core)).map (fun a => a.off + a.len)
  ((ends.filter (fun e => regionFree s core e len)).foldl (fun (m : Option Nat) e =>
    match m with
    | none => some e
    | some x => some (min x e)) none)

/-- Takes `len` bytes of a core's thread region; 0 bytes take no space. -/
def takeRegion (core len n : Nat) (seq : W32) (block : Nat) (s : State) : Option (Nat × State) :=
  if len = 0 then some (0, s)
  else
    match firstFit s core len with
    | some off =>
      some (off, { s with allocs := s.allocs ++ [{ core := core, off := off, len := len, ch := n, seq := seq, block := block }] })
    | none => none

/-- The element of a list with the largest measure, the first among equals. -/
def best (f : Nat → Nat) (l : List Nat) : Option Nat :=
  l.foldl (fun (m : Option Nat) x =>
    match m with
    | none => some x
    | some y => if f y < f x then some x else m) none

/-- A new thread (R135): every register 0, T7 at its spill area. -/
def newThread (spill i : Nat) : Thread :=
  { regs := Tab.set 0 127 (BitVec.ofNat 32 (0x200000 + i * spill)) [], pc := 0 }

/-- A KERNEL starts on a core: the core's instruction cache is invalidated (R135), once for each KERNEL. -/
def startOn (n core : Nat) (seq : W32) (s : State) : State :=
  if (opOf (chOf s n) seq).any (fun o => o.startedOn.contains core) then s
  else { setOp n seq (fun o => { o with startedOn := core :: o.startedOn }) s with icache := Tab.set [] core [] s.icache }

/-- Places group `i` of a block on the core of a cluster with the fewest resident groups that fits it
(log entry 26). -/
def placeGroup (n : Nat) (o : Op) (cl home sharedOff i : Nat) (s : State) : Option State :=
  let fits := (coresOf cl).filter (fun k => !(freeSlots s k).isEmpty &&
    (kSpill o == 0 || (firstFit s k (32 * kSpill o)).isSome))
  match best (fun k => (freeSlots s k).length) fits with
  | none => none
  | some core =>
    match takeRegion core (32 * kSpill o) n o.seq o.blocksPlaced s with
    | none => none
    | some (off, t) =>
      let entry := BitVec.ofNat 64 (at_ o.desc 0x10 8)
      let ths := (List.range 32).map (fun j => { newThread (kSpill o) j with pc := entry })
      some (setGroup core ((freeSlots s core).headD 0)
        (some { ch := n, seq := o.seq, block := o.blocksPlaced, index := i, alcove := o.list, spill := kSpill o,
                spillOff := off, home := home, sharedOff := sharedOff, shared := kShared o, threads := ths })
        (startOn n core o.seq t))

/-- Places groups `i` onwards, `k` of them. -/
def placeGroups (n : Nat) (o : Op) (cl home sharedOff : Nat) : Nat → Nat → State → Option State
  | 0, _, s => some s
  | k + 1, i, s =>
    match placeGroup n o cl home sharedOff i s with
    | some t => placeGroups n o cl home sharedOff k (i + 1) t
    | none => none

/-- Places the next block on one cluster, if it fits at once: home core with the most free thread
region, ties to the lower id (R169). -/
def placeOn (n : Nat) (o : Op) (s : State) (cl : Nat) : Option State :=
  match best (freeRegion s) (coresOf cl) with
  | none => none
  | some home =>
    match takeRegion home (kShared o) n o.seq o.blocksPlaced s with
    | none => none
    | some (off, t) => placeGroups n o cl home off (kGroups o) 0 t

/-- The clusters of the alcove that runs an operation; a variant chamber is one alcove. -/
def opClusters (c : Chamber) (k : Nat) : List Nat := bits64 (alcoveMask c k)

/-- Places the next block on the first cluster of the alcove that fits it. -/
def placeBlock (n : Nat) (o : Op) (s : State) : Option State :=
  match (opClusters (chOf s n) o.list).findSome? (placeOn n o s) with
  | some t => some (setOp n o.seq (fun q => { q with blocksPlaced := q.blocksPlaced + 1 }) t)
  | none => none

/-- Whether every block of the earlier KERNELs of the alcove has been placed (R134). -/
def earlierPlaced (c : Chamber) (o : Op) : Bool :=
  (c.ops.takeWhile (fun q => q.seq != o.seq)).all (fun q =>
    q.list != o.list || opType q != 3 || q.state == .retiring || decide (kBlocks q ≤ q.blocksPlaced))

/-- Whether one block of a KERNEL fits on an empty cluster (R136, R169). -/
def fitsEmpty (n : Nat) (o : Op) (s : State) : Bool :=
  let empty := { s with groups := [], allocs := [] }
  (opClusters (chOf s n) o.list).any (fun cl => (placeOn n o empty cl).isSome)

end Sys2Proof.Machine
end

