-- ==== Sys2Proof/Machine/Sched.lean ====
section
/-! DEFINITION. Sched.lean: which operation may start (R223, R235, R246, R247, R254, R265, R274, R400), and
the geometry of matrix operations that the start rules and the chain rule use (R90 to R92, R249). -/
namespace Sys2Proof.Machine
open Sys2Proof

/-- A little-endian field of a descriptor. -/
def df (o : Op) (off n : Nat) : Nat := at_ o.desc off n

/-- CONTROL of MATMUL and CONV (Table ENG-6). -/
def control (o : Op) : W32 := BitVec.ofNat 32 (df o 0x5C 4)

/-- ACC_IN: 0 ZERO, 1 LOAD, 2 KEEP. -/
def accIn (o : Op) : Nat := fld (control o) 5 4

/-- ACC_OUT: 0 WRITE, 1 HOLD, 2 WRITE_HOLD, 3 REDUCE. -/
def accOut (o : Op) : Nat := fld (control o) 7 6

/-- The cores that run an operation of list `k`, ascending (R92). -/
def opCores (c : Chamber) (k : Nat) : List Nat := alcoveCores c k

/-- Group size G (Table ENG-6). -/
def groupSize (o : Op) : Nat :=
  match fld (control o) 1 0 with
  | 1 => 4
  | 2 => 8
  | _ => 16

/-- Rows, columns and reduction length of a MATMUL or CONV (R90, R97, R113); the rows of a CONV are its
output positions. -/
def matDims (o : Op) : Nat × Nat × Nat :=
  if opType o = 2 then
    let kr := krOf (df o 0x58 1)
    (df o 0x50 2 * df o 0x48 2 * df o 0x4A 2, df o 0x46 2,
     ceilDiv (df o 0x44 2) kr * kr * df o 0x4C 1 * df o 0x4D 1)
  else (df o 0x40 4, df o 0x44 4, df o 0x48 4)

/-- The row tiles: at most 128 rows each; in CONV, positions of one output row of one image (R90, R113). -/
def rowTiles (o : Op) : List (List Nat) :=
  if opType o = 2 then
    let w := df o 0x4A 2
    (List.range (df o 0x50 2 * df o 0x48 2)).flatMap (fun r =>
      (List.range (ceilDiv w 128)).map (fun t =>
        (List.range (min 128 (w - 128 * t))).map (fun x => r * w + 128 * t + x)))
  else
    let m := df o 0x40 4
    (List.range (ceilDiv m 128)).map (fun i => (List.range (min 128 (m - 128 * i))).map (fun l => 128 * i + l))

/-- Number of row tiles (R90, R113). -/
def rowTileCount (o : Op) : Nat :=
  if opType o = 2 then df o 0x50 2 * df o 0x48 2 * ceilDiv (df o 0x4A 2) 128 else ceilDiv (df o 0x40 4) 128

/-- T (R90, R113). -/
def tileCount (o : Op) : Nat := rowTileCount o * ceilDiv (matDims o).2.1 256

/-- The effective P of an operation (R90, R91, R109). -/
def opP (c : Chamber) (o : Op) : Nat :=
  if opType o = 1 ∧ df o 0x5B 1 = 1 then 1
  else effP (matDims o).2.2 (wantedP (bit (control o) 3) (fld (control o) 19 16)
    (opCores c o.list).length (tileCount o))

/-- The core of work unit `u` (R92). -/
def unitCore (cores : List Nat) (u : Nat) : Nat := cores.getD (u % cores.length) 0

/-- The accumulator format of an operation's pair. -/
def opAcc (o : Op) : Option Nat := pairAcc (df o 0x58 1) (df o 0x59 1)

/-- What R249 asks of one operation of a chain by itself. -/
def chainable (c : Chamber) (o : Op) : Bool :=
  o.banked && ((opType o == 1 && df o 0x5B 1 == 0) || opType o == 2) &&
  opAcc o == some (df o 0x5A 1) && fld (control o) 15 14 == 0 && accOut o == 0 && !bit (control o) 26 &&
  decide (tileCount o * opP c o ≤ (opCores c o.list).length)

/-- Whether Y joins a chain whose last operation has descriptor and list of X (R249). -/
def joins (c : Chamber) (x y : Op) : Bool :=
  chainable c x && chainable c y && opType x == opType y && accIn y == 1 &&
  (if opType x = 2 then df x 0x46 2 == df y 0x46 2 && df x 0x48 4 == df y 0x48 4 && df x 0x50 2 == df y 0x50 2
   else df x 0x40 8 == df y 0x40 8 && df x 0x54 4 == df y 0x54 4) &&
  opP c x == opP c y && df x 0x30 8 == df y 0x30 8 && df x 0x5A 1 == df y 0x5A 1

/-! ## Order in a list -/

/-- The operations of list `k` that stand in list order, oldest first; banked ones do not (R246). -/
def listOps (c : Chamber) (k : Nat) : List Op := c.ops.filter (fun o => o.list == k && !o.banked)

/-- The operations of its list before an operation. -/
def earlierOps (c : Chamber) (o : Op) : List Op := (listOps c o.list).takeWhile (fun q => q.seq != o.seq)

/-- Whether an operation has entered EXECUTING. -/
def entered (o : Op) : Bool := o.state != .fetched && o.state != .staged

/-- Rules 1 to 3 of R223. -/
def rules123 (c : Chamber) (o : Op) : Bool :=
  let e := earlierOps c o
  e.all entered && !(e.any (fun q => opType q == 8)) && (!(barrier o || opType o == 7) || e.isEmpty)

/-- Rule 4 of R223, and R249 within a chain: no matrix-class operation of the alcove executes or is in
RETIRING, but for links that have finished their steps. -/
def engineFree (c : Chamber) (k : Nat) : Bool :=
  !(c.ops.any (fun q => q.list == k && isMatrix (opType q) && (q.state == .executing || q.state == .retiring)))

/-- Whether the norm wait of an UPDATE is met (R265). -/
def normMet (c : Chamber) (o : Op) : Bool :=
  !bit (BitVec.ofNat 32 (df o 0x60 4)) 9 ||
  reached (counterOf c (df o 0x64 2)) (BitVec.ofNat 32 (df o 0x68 4))

/-- A stream is free: FREE, DONE, TIMED_OUT or CANCELLED (R235). -/
def streamFree (c : Chamber) (t : Nat) : Bool :=
  let st := (Tab.get {} t c.streams).st
  st == 0 || st == 3 || st == 4 || st == 5

/-- An EPOCH that meets condition 1 of R254: every earlier operation of its list has retired. -/
def epochWaits (c : Chamber) (o : Op) : Bool := opType o == 9 && (earlierOps c o).isEmpty

/-- Whether an EPOCH holds an operation back (R254): one of another list whose condition 1 holds, and,
for operations after it in its own list, until it retires (log entry 27). WAIT and SIGNAL pass, and so do banked
operations until the EPOCH executes, for it waits until they have drained. Between two EPOCHs that wait, the earlier,
then the lower list, goes first. -/
def epochBlocks (c : Chamber) (o : Op) : Bool :=
  opType o != 7 && opType o != 8 &&
  c.ops.any (fun e => e.seq != o.seq && opType e == 9 &&
    (if o.banked then entered e
     else if e.list = o.list then (earlierOps c o).any (fun q => q.seq == e.seq)
     else epochWaits c e &&
      (entered e || opType o != 9 || !epochWaits c o ||
        (match e.waitFrom, o.waitFrom with
         | some x, some y => decide (x.toNat < y.toNat ∨ (x = y ∧ e.list < o.list))
         | some _, none => true
         | none, some _ => false
         | none, none => decide (e.list < o.list)))))

/-- The conditions that single types add to R223 (R235, R254, R274, R400), without the norm wait. -/
def typeRule (s : State) (n : Nat) (c : Chamber) (o : Op) : Bool :=
  match opType o with
  | 1 => engineFree c o.list
  | 2 => engineFree c o.list
  | 3 => earlierPlaced c o && (placeBlock n o s).isSome
  | 4 => streamFree c (streamOf o)
  | 6 => engineFree c o.list &&
    !(c.ops.any (fun q => opType q == 0xB && q.waitFrom.isSome))
  | 9 => (earlierOps c o).isEmpty && !(c.ops.any (fun q => q.banked && q.state != .retiring)) &&
    !(c.ops.any (fun q => q.state == .executing && (let t := opType q
      isMatrix t || t == 3 || t == 4 || t == 5 || t == 0xC)))
  | 0xA => (earlierOps c o).isEmpty && !(c.ops.any (fun q => q.state == .executing && opType q == 0xA))
  | 0xB => (earlierOps c o).isEmpty && !(c.ops.any (fun q => q.state == .executing && opType q == 6))
  | _ => true

/-- A SNAPSHOT in flight holds back the later operations of its list (R400). -/
def snapshotBlocks (c : Chamber) (o : Op) : Bool := (earlierOps c o).any (fun q => opType q == 0xA)

/-- Whether a list operation may enter EXECUTING, its norm wait apart. -/
def startable (s : State) (n : Nat) (o : Op) : Bool :=
  let c := chOf s n
  o.state == .staged && rules123 c o && typeRule s n c o && !epochBlocks c o && !snapshotBlocks c o

/-! ## The choice of R247 -/

/-- The oldest entry of alcove `k` in the bank queue. -/
def bankHead (c : Chamber) (k : Nat) : Option Op := c.ops.find? (fun o => o.list == k && o.inQueue)

/-- Entries of the bank queue (R245). -/
def bankDepth (c : Chamber) : Nat := c.ops.countP (·.inQueue)

/-- The next matrix-class list operation of list `k`. -/
def nextMatrix (c : Chamber) (k : Nat) : Option Op :=
  (listOps c k).find? (fun o => o.state == .staged && isMatrix (opType o))

/-- Whether the head of a bank is forced: queue full, or head too old (R247). -/
def bankForced (s : State) (c : Chamber) (b : Op) : Bool :=
  let age := fld (cget 0xC04 c) 15 0
  bankDepth c == 32 || (age != 0 && decide (age * 1000 ≤ now s - b.entered.toNat))

/-- The choice of R247 for alcove `k`: the operation, and whether the choice was forced. -/
def choose (s : State) (n k : Nat) : Option (Op × Bool) :=
  let c := chOf s n
  let b := bankHead c k
  let l := (nextMatrix c k).filter (fun o => startable s n o && (opType o != 6 || normMet c o))
  match b, l with
  | some x, _ => if bankForced s c x then some (x, true) else some (l.getD x, false)
  | none, some y => some (y, false)
  | none, none => none

/-- Notes when an operation's other start conditions first held: EPOCH (R254), SEAL (R274), an UPDATE
with a norm wait (R265). -/
def noteWaits (n : Nat) (s : State) : State :=
  modCh n (fun c => { c with ops := c.ops.map (fun o =>
    if o.waitFrom.isNone && o.state == .staged && isRunning s n &&
        ((opType o == 9 && (earlierOps c o).isEmpty) ||
         ((opType o == 0xB || opType o == 6) && startable s n o)) then
      { o with waitFrom := some s.time }
    else o) }) s

/-- The threads of a chamber that waited before an access may try it again (R99, R153). -/
def wakeHolds (n : Nat) (s : State) : State :=
  { s with groups := s.groups.map (fun e => match e.2 with
      | some g =>
        if g.ch = n then
          (e.1, some { g with threads := g.threads.map (fun t => if t.wait = .hold then { t with wait := .run } else t) })
        else e
      | none => e) }

/-- Everything that a change completes or lets wait. -/
def settleAll (n : Nat) (s : State) : State := wakeHolds n (noteWaits n (settle n s))

end Sys2Proof.Machine
end

