-- ==== Sys2Proof/Machine/Observe.lean ====
section
/-! DEFINITION. Observe.lean: lantern snapshots (R396 to R400). -/
namespace Sys2Proof.Machine
open Sys2Proof

/-! ## Lantern snapshots (R396 to R400) -/

/-- Whether island clocks run: from the end of PU2 to the end of PD3 (Tables PWR-2 and PWR-3). -/
def islandsOn (s : State) : Bool :=
  match s.power.phase with
  | .pu k => decide (3 ≤ k)
  | .ready => true
  | .pd k => decide (k ≤ 3)
  | _ => false

/-- Whether an operation is EXECUTING (Table PWR-1: Active). -/
def anyExecuting (s : State) : Bool :=
  allCh.any (fun n => (chOf s n).ops.any (fun o => o.state == .executing))

/-- Whether a cluster's clock runs: in Active, in a RUNNING chamber (R336, R346). -/
def clusterRuns (s : State) (cl : Nat) : Bool :=
  islandsOn s && anyExecuting s &&
  (match chOfCluster s cl with | some n => isRunning s n | none => false)

/-- Whether the island of a bank is stopped or clock-gated (Table OBS-1, R396). -/
def bankStopped (s : State) (b : Nat) : Bool := if b < 64 then !clusterRuns s b else !islandsOn s

/-- How far after T the latching edge of a bank lies (R396): 0 for a stopped one, else up to 5 ns in its own view (one
period at 0.40 GHz stretched to twice its length), which is free (log entry 46). -/
def edgeAfter (s : State) (r : Latching) (b : Nat) : Nat :=
  if bankStopped s b then 0 else (Config.freeWord (r.base + b)).toNat % 6

/-- The shadow of a bank that latches now: the counters as they stand, and the time of its edge (R396, R397). -/
def latchBank (b : Nat) (r : Latching) (s : State) : Shadow :=
  { counters := (List.range 16).map (fun i => Tab.get 0 (16 * b + i) s.banks), snapId := r.snapId, valid := true,
    stopped := bankStopped s b, latch := r.target + BitVec.ofNat 64 (edgeAfter s r b) }

/-- The banks of a snapshot whose latching edge has come. -/
def edgesNow (s : State) (r : Latching) : List Nat :=
  r.left.filter (fun b => decide (r.target.toNat + edgeAfter s r b ≤ now s))

/-- What is left of a snapshot once these banks have latched. -/
def leftAfter (s : State) (r : Latching) : Latching :=
  { r with left := r.left.filter (fun b => !decide (r.target.toNat + edgeAfter s r b ≤ now s)) }

/-- Time shadows latch (R396). -/
def latchShadows (r : Latching) (s : State) : State :=
  { s with shadows := (edgesNow s r).foldl (fun t b => Tab.set {} b (latchBank b r s) t) s.shadows,
           latching := some (leftAfter s r) }

/-- At T an armed time snapshot is LATCHING (R399 step 4), and its banks latch as their edges come. -/
def lanternTick (s : State) : State :=
  if s.lnt = .armed ∧ s.lntTime.toNat ≤ now s then
    latchShadows { target := s.lntTime, snapId := gget 0x5010 s, base := s.free, left := List.range 188 }
      { s with lnt := .latching, free := s.free + 188 }
  else if s.lnt = .latching then
    (match s.latching with
     | some r => latchShadows r s
     | none => s)
  else s

/-- Operation shadows of chamber `n` latch (R400 step 2). -/
def latchOps (n : Nat) (r : Latching) (s : State) : State :=
  modCh n (fun c => { c with snap := some (leftAfter s r) })
    { s with opShadows := (edgesNow s r).foldl (fun t b => Tab.set {} b (latchBank b r s) t) s.opShadows }

/-- An executing SNAPSHOT of chamber `n` latches its banks from its start + 2 µs on (R400); when it is cancelled or done,
what has latched stays. -/
def snapTick (n : Nat) (s : State) : State :=
  let c := chOf s n
  match c.ops.find? (fun o => opType o == 0xA && o.state == .executing && !o.begun) with
  | none => if c.snap.isSome then setCh n { c with snap := none } s else s
  | some o =>
    let t := o.start + 2000
    match c.snap with
    | some r => if r.snapId = o.seq then latchOps n r s else setCh n { c with snap := none } s
    | none =>
      if t.toNat ≤ now s then
        latchOps n { target := t, snapId := o.seq, base := s.free, left := (156 + n) :: bits64 c.clusters }
          { s with free := s.free + 188 }
      else s

/-- The 16 counters of a shadow as bytes (Table OBS-3). -/
def shadowCounters (x : Shadow) : Bytes := (List.range 16).flatMap (fun i => natLe 8 (x.counters.getD i 0).toNat)

/-- A shadow slot (Table OBS-3). -/
def shadowBytes (x : Shadow) : Bytes :=
  shadowCounters x ++ natLe 4 x.snapId.toNat ++
  natLe 4 ((if x.valid then 1 else 0) + (if x.stopped then 2 else 0)) ++ natLe 8 x.latch.toNat ++
  List.replicate 112 0

/-- The dump of a SNAPSHOT (Table OBS-5). -/
def dumpBytes (s : State) (n : Nat) (seq : W32) (t : Nat) : Bytes :=
  let cls := bits64 (chOf s n).clusters
  natLe 4 seq.toNat ++ natLe 1 cls.length ++ natLe 3 0 ++ natLe 8 t ++ natLe 4 (creg s n 0x10).toNat ++
  List.replicate 44 0 ++ (((156 + n) :: cls).flatMap (fun b => shadowCounters (Tab.get {} b s.opShadows)))

/-- The end of a SNAPSHOT whose banks have latched: its dump (R400 step 3). -/
def dumpSnapshot (n : Nat) (o : Op) (s : State) : State :=
  let t := o.start.toNat + 2000
  let fin := fun (u : State) => setOp n o.seq (fun q => { q with begun := true }) (modCh n (fun c => { c with snap := none }) u)
  let space := df o 0x18 1
  if space = 2 then fin s
  else
    match dStore n (agent 4) space (df o 0x10 8) (dumpBytes s n o.seq t) s with
    | (.error e, u) => accessFault n o.seq 4 e u
    | (.ok (), u) => fin u

/-- The work of a SNAPSHOT (R400): its banks latch, and once all have, it writes its dump. -/
def runSnapshot (n : Nat) (o : Op) (s : State) : State :=
  let s1 := snapTick n s
  match (chOf s1 n).snap with
  | some r => if r.left = [] then dumpSnapshot n o s1 else s1
  | none => s1

/-- SNAPSHOT: the work of an executing SNAPSHOT, from its start + 2 µs on (R400). -/
def execSnapshot (ch : Fin 32) (seq : W32) (s : State) : Host.Outcome State Fault Refusal :=
  match executing s ch.val seq [0xA] with
  | some o =>
    if !o.begun ∧ o.start.toNat + 2000 ≤ now s then .next (settleAll ch.val (runSnapshot ch.val o s)) else .next s
  | none => .next s

/-- ARM (R399 steps 1 to 3). -/
def armLantern (s : State) : State :=
  let t := gpair 0x5008 s
  if t < now s + 10000 ∨ s.lnt = .latching then eventG 0x1201 [] (gsetBit 0x5004 2 s)
  else { gmod 0x5010 (fun w => w + 1) s with lnt := .armed, lntTime := BitVec.ofNat 64 t }

/-- CANCEL: an armed snapshot returns to IDLE (R399). -/
def cancelLantern (s : State) : State :=
  if s.lnt = .armed then { gsetBit 0x5004 3 s with lnt := .idle } else s

/-- LANTERN_LATCH (R396, R399 step 4): once every bank has latched, the snapshot is DONE. The latching itself comes with
module time (Tick.lean). -/
def execLanternLatch (s : State) : Host.Outcome State Fault Refusal :=
  let s1 := lanternTick s
  match s1.latching with
  | some r =>
    if s1.lnt = .latching ∧ r.left = [] then
      .next (eventG 0x1202 [r.snapId.toNat, r.target.toNat] { s1 with lnt := .done, latching := none })
    else .next s1
  | none => .next s1

end Sys2Proof.Machine
end

