-- ==== Sys2Proof/Machine/RegTable.lean ====
section
/-! DEFINITION. RegTable.lean: every register that the manual's tables name, by its offset in its block,
with the bits that a write sets (RW, RWS), the bits that a 1 clears (W1C) and the value it takes at a
cold start or at chamber creation (R5 to R8, Table SCP-4). A bit in neither mask is read-only,
write-only, reserved, or changed through dual approval (R51). -/
namespace Sys2Proof.Machine
open Sys2Proof

/-- One register: offset in its block, name, RW mask, W1C mask, reset value. -/
structure RegSpec where
  off : Nat
  name : String
  rw : W32
  w1c : W32
  reset : W32
  deriving DecidableEq, Repr

/-- The chamber block (Tables STR-8, ENG-9, CHK-3, THR-9, MEM-7, ECH-8, OPS-12, PIP-4, OPT-8, LNK-13,
ECC-8, ECC-10, PWR-11, MOD-5, OBS-8, R32). -/
def chmRegs : List RegSpec :=
  [ ⟨0x0, "CHM_CTL", 0x0, 0x0, 0x0⟩,
    ⟨0x4, "CHM_STAT", 0x0, 0x0, 0x0⟩,
    ⟨0x8, "CHM_CLMASK_LO", 0x0, 0x0, 0x0⟩,
    ⟨0xC, "CHM_CLMASK_HI", 0x0, 0x0, 0x0⟩,
    ⟨0x10, "CHM_JOB", 0xFFFFFFFF, 0x0, 0x0⟩,
    ⟨0x14, "CHM_PROT", 0x0, 0x0, 0x0⟩,
    ⟨0x18, "CHM_ADP_BASE_LO", 0xFFFFFFFF, 0x0, 0x0⟩,
    ⟨0x1C, "CHM_ADP_BASE_HI", 0xFFFF, 0x0, 0x0⟩,
    ⟨0x40, "CHM_OKEY0", 0x0, 0x0, 0x0⟩,
    ⟨0x44, "CHM_OKEY1", 0x0, 0x0, 0x0⟩,
    ⟨0x48, "CHM_OKEY2", 0x0, 0x0, 0x0⟩,
    ⟨0x4C, "CHM_OKEY3", 0x0, 0x0, 0x0⟩,
    ⟨0x50, "CHM_OKEY4", 0x0, 0x0, 0x0⟩,
    ⟨0x54, "CHM_OKEY5", 0x0, 0x0, 0x0⟩,
    ⟨0x58, "CHM_OKEY6", 0x0, 0x0, 0x0⟩,
    ⟨0x5C, "CHM_OKEY7", 0x0, 0x0, 0x0⟩ ] ++
  [ ⟨0x60, "CHM_OKEY8", 0x0, 0x0, 0x0⟩,
    ⟨0x64, "CHM_OKEY9", 0x0, 0x0, 0x0⟩,
    ⟨0x68, "CHM_OKEY10", 0x0, 0x0, 0x0⟩,
    ⟨0x6C, "CHM_OKEY11", 0x0, 0x0, 0x0⟩,
    ⟨0x70, "CHM_OKEY12", 0x0, 0x0, 0x0⟩,
    ⟨0x74, "CHM_OKEY13", 0x0, 0x0, 0x0⟩,
    ⟨0x78, "CHM_OKEY14", 0x0, 0x0, 0x0⟩,
    ⟨0x7C, "CHM_OKEY15", 0x0, 0x0, 0x0⟩,
    ⟨0x80, "CHM_OKEY16", 0x0, 0x0, 0x0⟩,
    ⟨0x84, "CHM_OKEY17", 0x0, 0x0, 0x0⟩,
    ⟨0x88, "CHM_OKEY18", 0x0, 0x0, 0x0⟩,
    ⟨0x8C, "CHM_OKEY19", 0x0, 0x0, 0x0⟩,
    ⟨0x90, "CHM_OKEY20", 0x0, 0x0, 0x0⟩,
    ⟨0x94, "CHM_OKEY21", 0x0, 0x0, 0x0⟩,
    ⟨0x98, "CHM_OKEY22", 0x0, 0x0, 0x0⟩,
    ⟨0x9C, "CHM_OKEY23", 0x0, 0x0, 0x0⟩ ] ++
  [ ⟨0x400, "ENG_STAT", 0x0, 0x3, 0x0⟩,
    ⟨0x404, "ENG_FAULT_SEQ", 0x0, 0x0, 0x0⟩,
    ⟨0x408, "ENG_FAULT_DET", 0x0, 0x0, 0x0⟩,
    ⟨0x500, "CHK_STAT", 0x0, 0x1, 0x0⟩,
    ⟨0x504, "CHK_LAST_SEQ", 0x0, 0x0, 0x0⟩,
    ⟨0x508, "CHK_LAST_LOC", 0x0, 0x0, 0x0⟩,
    ⟨0x50C, "CHK_LAST_TIME_LO", 0x0, 0x0, 0x0⟩,
    ⟨0x510, "CHK_LAST_TIME_HI", 0x0, 0x0, 0x0⟩,
    ⟨0x514, "CHK_MISMATCHES", 0x0, 0x0, 0x0⟩,
    ⟨0x518, "CHK_SKIPPED_LO", 0x0, 0x0, 0x0⟩,
    ⟨0x51C, "CHK_SKIPPED_HI", 0x0, 0x0, 0x0⟩,
    ⟨0x520, "CHK_UNCHECKED", 0x0, 0x0, 0x0⟩,
    ⟨0x600, "THR_STAT", 0x0, 0x1, 0x0⟩,
    ⟨0x604, "THR_FAULT_SEQ", 0x0, 0x0, 0x0⟩,
    ⟨0x608, "THR_FAULT_LOC", 0x0, 0x0, 0x0⟩,
    ⟨0x60C, "THR_FAULT_PC_LO", 0x0, 0x0, 0x0⟩ ] ++
  [ ⟨0x610, "THR_FAULT_PC_HI", 0x0, 0x0, 0x0⟩,
    ⟨0x614, "THR_FAULT_ADDR_LO", 0x0, 0x0, 0x0⟩,
    ⟨0x618, "THR_FAULT_ADDR_HI", 0x0, 0x0, 0x0⟩,
    ⟨0x61C, "THR_FAULT_BLK", 0x0, 0x0, 0x0⟩,
    ⟨0x620, "THR_TRAPS_LO", 0x0, 0x0, 0x0⟩,
    ⟨0x624, "THR_TRAPS_HI", 0x0, 0x0, 0x0⟩,
    ⟨0x628, "THR_ENGINE_LO", 0x0, 0x0, 0x0⟩,
    ⟨0x62C, "THR_ENGINE_HI", 0x0, 0x0, 0x0⟩,
    ⟨0x700, "MEM_CTL", 0x0, 0x0, 0x0⟩,
    ⟨0x704, "MEM_STAT", 0x0, 0x6, 0x0⟩,
    ⟨0x708, "MEM_PTBASE_LO", 0xFFFFF000, 0x0, 0x0⟩,
    ⟨0x70C, "MEM_PTBASE_HI", 0x7F, 0x0, 0x0⟩,
    ⟨0x710, "MEM_GAL_SIZE", 0x0, 0x0, 0x0⟩,
    ⟨0x714, "MEM_ECHO_SIZE", 0x0, 0x0, 0x0⟩,
    ⟨0x718, "MEM_FAULT_SEQ", 0x0, 0x0, 0x0⟩,
    ⟨0x71C, "MEM_FAULT_ADDR_LO", 0x0, 0x0, 0x0⟩ ] ++
  [ ⟨0x720, "MEM_FAULT_ADDR_HI", 0x0, 0x0, 0x0⟩,
    ⟨0x724, "MEM_FAULT_INFO", 0x0, 0x0, 0x0⟩,
    ⟨0x728, "MEM_ROT_PTR_LO", 0x0, 0x0, 0x0⟩,
    ⟨0x72C, "MEM_ROT_PTR_HI", 0x0, 0x0, 0x0⟩,
    ⟨0x800, "ECH_CFG", 0x1FFFF, 0x0, 0x3E8⟩,
    ⟨0x804, "ECH_STAT", 0x0, 0x3, 0x0⟩,
    ⟨0x808, "ECH_EPOCH", 0x0, 0x0, 0x0⟩,
    ⟨0x80C, "ECH_ACC", 0x0, 0x0, 0x0⟩,
    ⟨0x810, "ECH_READ", 0x0, 0x0, 0x0⟩,
    ⟨0x818, "ECH_HIT_LO", 0x0, 0x0, 0x0⟩,
    ⟨0x81C, "ECH_HIT_HI", 0x0, 0x0, 0x0⟩,
    ⟨0x820, "ECH_MISS_LO", 0x0, 0x0, 0x0⟩,
    ⟨0x824, "ECH_MISS_HI", 0x0, 0x0, 0x0⟩,
    ⟨0x828, "ECH_SENT_LO", 0x0, 0x0, 0x0⟩,
    ⟨0x82C, "ECH_SENT_HI", 0x0, 0x0, 0x0⟩,
    ⟨0x830, "ECH_STALE_IN_LO", 0x0, 0x0, 0x0⟩ ] ++
  [ ⟨0x834, "ECH_STALE_IN_HI", 0x0, 0x0, 0x0⟩,
    ⟨0x838, "ECH_DISCARD_LO", 0x0, 0x0, 0x0⟩,
    ⟨0x83C, "ECH_DISCARD_HI", 0x0, 0x0, 0x0⟩,
    ⟨0x840, "ECH_FAULT_IN", 0x0, 0x0, 0x0⟩,
    ⟨0x844, "ECH_FAULT_SEQ", 0x0, 0x0, 0x0⟩,
    ⟨0x848, "ECH_FAULT_ADDR_LO", 0x0, 0x0, 0x0⟩,
    ⟨0x84C, "ECH_FAULT_ADDR_HI", 0x0, 0x0, 0x0⟩,
    ⟨0x900, "OPS_CFG", 0xFFFFFFFF, 0x0, 0x17702710⟩,
    ⟨0x904, "OPS_STAT", 0x0, 0x2000, 0x0⟩,
    ⟨0x908, "OPS_FAULT_SEQ", 0x0, 0x0, 0x0⟩,
    ⟨0x90C, "OPS_FAULT_INFO", 0x0, 0x0, 0x0⟩,
    ⟨0x910, "OPS_STR_BASE_LO", 0xFFFF0000, 0x0, 0x0⟩,
    ⟨0x914, "OPS_STR_BASE_HI", 0x3, 0x0, 0x0⟩,
    ⟨0x918, "OPS_STR_COUNT", 0x7FFFF, 0x0, 0x0⟩,
    ⟨0xA00, "OPS_LBASE_LO_0", 0xFFFFF000, 0x0, 0x0⟩,
    ⟨0xA04, "OPS_LBASE_HI_0", 0xFFFF, 0x0, 0x0⟩ ] ++
  [ ⟨0xA08, "OPS_LSIZE_0", 0x1F, 0x0, 0x0⟩,
    ⟨0xA0C, "OPS_TAIL_0", 0xFFFFF, 0x0, 0x0⟩,
    ⟨0xA10, "OPS_HEAD_0", 0x0, 0x0, 0x0⟩,
    ⟨0xA14, "OPS_FETCH_0", 0x0, 0x0, 0x0⟩,
    ⟨0xA18, "OPS_NEXTSEQ_0", 0x0, 0x0, 0x0⟩,
    ⟨0xA20, "OPS_LBASE_LO_1", 0xFFFFF000, 0x0, 0x0⟩,
    ⟨0xA24, "OPS_LBASE_HI_1", 0xFFFF, 0x0, 0x0⟩,
    ⟨0xA28, "OPS_LSIZE_1", 0x1F, 0x0, 0x0⟩,
    ⟨0xA2C, "OPS_TAIL_1", 0xFFFFF, 0x0, 0x0⟩,
    ⟨0xA30, "OPS_HEAD_1", 0x0, 0x0, 0x0⟩,
    ⟨0xA34, "OPS_FETCH_1", 0x0, 0x0, 0x0⟩,
    ⟨0xA38, "OPS_NEXTSEQ_1", 0x0, 0x0, 0x0⟩,
    ⟨0xA40, "OPS_LBASE_LO_2", 0xFFFFF000, 0x0, 0x0⟩,
    ⟨0xA44, "OPS_LBASE_HI_2", 0xFFFF, 0x0, 0x0⟩,
    ⟨0xA48, "OPS_LSIZE_2", 0x1F, 0x0, 0x0⟩,
    ⟨0xA4C, "OPS_TAIL_2", 0xFFFFF, 0x0, 0x0⟩ ] ++
  [ ⟨0xA50, "OPS_HEAD_2", 0x0, 0x0, 0x0⟩,
    ⟨0xA54, "OPS_FETCH_2", 0x0, 0x0, 0x0⟩,
    ⟨0xA58, "OPS_NEXTSEQ_2", 0x0, 0x0, 0x0⟩,
    ⟨0xA60, "OPS_LBASE_LO_3", 0xFFFFF000, 0x0, 0x0⟩,
    ⟨0xA64, "OPS_LBASE_HI_3", 0xFFFF, 0x0, 0x0⟩,
    ⟨0xA68, "OPS_LSIZE_3", 0x1F, 0x0, 0x0⟩,
    ⟨0xA6C, "OPS_TAIL_3", 0xFFFFF, 0x0, 0x0⟩,
    ⟨0xA70, "OPS_HEAD_3", 0x0, 0x0, 0x0⟩,
    ⟨0xA74, "OPS_FETCH_3", 0x0, 0x0, 0x0⟩,
    ⟨0xA78, "OPS_NEXTSEQ_3", 0x0, 0x0, 0x0⟩,
    ⟨0xA80, "OPS_LBASE_LO_4", 0xFFFFF000, 0x0, 0x0⟩,
    ⟨0xA84, "OPS_LBASE_HI_4", 0xFFFF, 0x0, 0x0⟩,
    ⟨0xA88, "OPS_LSIZE_4", 0x1F, 0x0, 0x0⟩,
    ⟨0xA8C, "OPS_TAIL_4", 0xFFFFF, 0x0, 0x0⟩,
    ⟨0xA90, "OPS_HEAD_4", 0x0, 0x0, 0x0⟩,
    ⟨0xA94, "OPS_FETCH_4", 0x0, 0x0, 0x0⟩ ] ++
  [ ⟨0xA98, "OPS_NEXTSEQ_4", 0x0, 0x0, 0x0⟩,
    ⟨0xAA0, "OPS_LBASE_LO_5", 0xFFFFF000, 0x0, 0x0⟩,
    ⟨0xAA4, "OPS_LBASE_HI_5", 0xFFFF, 0x0, 0x0⟩,
    ⟨0xAA8, "OPS_LSIZE_5", 0x1F, 0x0, 0x0⟩,
    ⟨0xAAC, "OPS_TAIL_5", 0xFFFFF, 0x0, 0x0⟩,
    ⟨0xAB0, "OPS_HEAD_5", 0x0, 0x0, 0x0⟩,
    ⟨0xAB4, "OPS_FETCH_5", 0x0, 0x0, 0x0⟩,
    ⟨0xAB8, "OPS_NEXTSEQ_5", 0x0, 0x0, 0x0⟩,
    ⟨0xAC0, "OPS_LBASE_LO_6", 0xFFFFF000, 0x0, 0x0⟩,
    ⟨0xAC4, "OPS_LBASE_HI_6", 0xFFFF, 0x0, 0x0⟩,
    ⟨0xAC8, "OPS_LSIZE_6", 0x1F, 0x0, 0x0⟩,
    ⟨0xACC, "OPS_TAIL_6", 0xFFFFF, 0x0, 0x0⟩,
    ⟨0xAD0, "OPS_HEAD_6", 0x0, 0x0, 0x0⟩,
    ⟨0xAD4, "OPS_FETCH_6", 0x0, 0x0, 0x0⟩,
    ⟨0xAD8, "OPS_NEXTSEQ_6", 0x0, 0x0, 0x0⟩,
    ⟨0xAE0, "OPS_LBASE_LO_7", 0xFFFFF000, 0x0, 0x0⟩ ] ++
  [ ⟨0xAE4, "OPS_LBASE_HI_7", 0xFFFF, 0x0, 0x0⟩,
    ⟨0xAE8, "OPS_LSIZE_7", 0x1F, 0x0, 0x0⟩,
    ⟨0xAEC, "OPS_TAIL_7", 0xFFFFF, 0x0, 0x0⟩,
    ⟨0xAF0, "OPS_HEAD_7", 0x0, 0x0, 0x0⟩,
    ⟨0xAF4, "OPS_FETCH_7", 0x0, 0x0, 0x0⟩,
    ⟨0xAF8, "OPS_NEXTSEQ_7", 0x0, 0x0, 0x0⟩,
    ⟨0xC00, "PIP_BANK_CFG", 0x1FFFFFF, 0x0, 0x0⟩,
    ⟨0xC04, "PIP_BANK_AGE", 0xFFFF, 0x0, 0x2710⟩,
    ⟨0xC08, "PIP_BANK_STAT", 0x0, 0x80, 0x0⟩,
    ⟨0xC0C, "PIP_EPOCH_STAT", 0x0, 0x0, 0x0⟩,
    ⟨0xC10, "PIP_EPOCH_TIME_LO", 0x0, 0x0, 0x0⟩,
    ⟨0xC14, "PIP_EPOCH_TIME_HI", 0x0, 0x0, 0x0⟩,
    ⟨0xC18, "PIP_STAT", 0x0, 0x1, 0x0⟩,
    ⟨0xC40, "PIP_STAGE_0", 0xFFF1FFF, 0x0, 0x0⟩,
    ⟨0xC44, "PIP_MB_0", 0x0, 0x10000, 0x0⟩,
    ⟨0xC48, "PIP_STALL_0_LO", 0x0, 0x0, 0x0⟩ ] ++
  [ ⟨0xC4C, "PIP_STALL_0_HI", 0x0, 0x0, 0x0⟩,
    ⟨0xC50, "PIP_FILL_0_LO", 0x0, 0x0, 0x0⟩,
    ⟨0xC54, "PIP_FILL_0_HI", 0x0, 0x0, 0x0⟩,
    ⟨0xC58, "PIP_BANKED_0_LO", 0x0, 0x0, 0x0⟩,
    ⟨0xC5C, "PIP_BANKED_0_HI", 0x0, 0x0, 0x0⟩,
    ⟨0xC60, "PIP_STAGE_1", 0xFFF1FFF, 0x0, 0x0⟩,
    ⟨0xC64, "PIP_MB_1", 0x0, 0x10000, 0x0⟩,
    ⟨0xC68, "PIP_STALL_1_LO", 0x0, 0x0, 0x0⟩,
    ⟨0xC6C, "PIP_STALL_1_HI", 0x0, 0x0, 0x0⟩,
    ⟨0xC70, "PIP_FILL_1_LO", 0x0, 0x0, 0x0⟩,
    ⟨0xC74, "PIP_FILL_1_HI", 0x0, 0x0, 0x0⟩,
    ⟨0xC78, "PIP_BANKED_1_LO", 0x0, 0x0, 0x0⟩,
    ⟨0xC7C, "PIP_BANKED_1_HI", 0x0, 0x0, 0x0⟩,
    ⟨0xC80, "PIP_STAGE_2", 0xFFF1FFF, 0x0, 0x0⟩,
    ⟨0xC84, "PIP_MB_2", 0x0, 0x10000, 0x0⟩,
    ⟨0xC88, "PIP_STALL_2_LO", 0x0, 0x0, 0x0⟩ ] ++
  [ ⟨0xC8C, "PIP_STALL_2_HI", 0x0, 0x0, 0x0⟩,
    ⟨0xC90, "PIP_FILL_2_LO", 0x0, 0x0, 0x0⟩,
    ⟨0xC94, "PIP_FILL_2_HI", 0x0, 0x0, 0x0⟩,
    ⟨0xC98, "PIP_BANKED_2_LO", 0x0, 0x0, 0x0⟩,
    ⟨0xC9C, "PIP_BANKED_2_HI", 0x0, 0x0, 0x0⟩,
    ⟨0xCA0, "PIP_STAGE_3", 0xFFF1FFF, 0x0, 0x0⟩,
    ⟨0xCA4, "PIP_MB_3", 0x0, 0x10000, 0x0⟩,
    ⟨0xCA8, "PIP_STALL_3_LO", 0x0, 0x0, 0x0⟩,
    ⟨0xCAC, "PIP_STALL_3_HI", 0x0, 0x0, 0x0⟩,
    ⟨0xCB0, "PIP_FILL_3_LO", 0x0, 0x0, 0x0⟩,
    ⟨0xCB4, "PIP_FILL_3_HI", 0x0, 0x0, 0x0⟩,
    ⟨0xCB8, "PIP_BANKED_3_LO", 0x0, 0x0, 0x0⟩,
    ⟨0xCBC, "PIP_BANKED_3_HI", 0x0, 0x0, 0x0⟩,
    ⟨0xCC0, "PIP_STAGE_4", 0xFFF1FFF, 0x0, 0x0⟩,
    ⟨0xCC4, "PIP_MB_4", 0x0, 0x10000, 0x0⟩,
    ⟨0xCC8, "PIP_STALL_4_LO", 0x0, 0x0, 0x0⟩ ] ++
  [ ⟨0xCCC, "PIP_STALL_4_HI", 0x0, 0x0, 0x0⟩,
    ⟨0xCD0, "PIP_FILL_4_LO", 0x0, 0x0, 0x0⟩,
    ⟨0xCD4, "PIP_FILL_4_HI", 0x0, 0x0, 0x0⟩,
    ⟨0xCD8, "PIP_BANKED_4_LO", 0x0, 0x0, 0x0⟩,
    ⟨0xCDC, "PIP_BANKED_4_HI", 0x0, 0x0, 0x0⟩,
    ⟨0xCE0, "PIP_STAGE_5", 0xFFF1FFF, 0x0, 0x0⟩,
    ⟨0xCE4, "PIP_MB_5", 0x0, 0x10000, 0x0⟩,
    ⟨0xCE8, "PIP_STALL_5_LO", 0x0, 0x0, 0x0⟩,
    ⟨0xCEC, "PIP_STALL_5_HI", 0x0, 0x0, 0x0⟩,
    ⟨0xCF0, "PIP_FILL_5_LO", 0x0, 0x0, 0x0⟩,
    ⟨0xCF4, "PIP_FILL_5_HI", 0x0, 0x0, 0x0⟩,
    ⟨0xCF8, "PIP_BANKED_5_LO", 0x0, 0x0, 0x0⟩,
    ⟨0xCFC, "PIP_BANKED_5_HI", 0x0, 0x0, 0x0⟩,
    ⟨0xD00, "PIP_STAGE_6", 0xFFF1FFF, 0x0, 0x0⟩,
    ⟨0xD04, "PIP_MB_6", 0x0, 0x10000, 0x0⟩,
    ⟨0xD08, "PIP_STALL_6_LO", 0x0, 0x0, 0x0⟩ ] ++
  [ ⟨0xD0C, "PIP_STALL_6_HI", 0x0, 0x0, 0x0⟩,
    ⟨0xD10, "PIP_FILL_6_LO", 0x0, 0x0, 0x0⟩,
    ⟨0xD14, "PIP_FILL_6_HI", 0x0, 0x0, 0x0⟩,
    ⟨0xD18, "PIP_BANKED_6_LO", 0x0, 0x0, 0x0⟩,
    ⟨0xD1C, "PIP_BANKED_6_HI", 0x0, 0x0, 0x0⟩,
    ⟨0xD20, "PIP_STAGE_7", 0xFFF1FFF, 0x0, 0x0⟩,
    ⟨0xD24, "PIP_MB_7", 0x0, 0x10000, 0x0⟩,
    ⟨0xD28, "PIP_STALL_7_LO", 0x0, 0x0, 0x0⟩,
    ⟨0xD2C, "PIP_STALL_7_HI", 0x0, 0x0, 0x0⟩,
    ⟨0xD30, "PIP_FILL_7_LO", 0x0, 0x0, 0x0⟩,
    ⟨0xD34, "PIP_FILL_7_HI", 0x0, 0x0, 0x0⟩,
    ⟨0xD38, "PIP_BANKED_7_LO", 0x0, 0x0, 0x0⟩,
    ⟨0xD3C, "PIP_BANKED_7_HI", 0x0, 0x0, 0x0⟩,
    ⟨0xE00, "OPT_NORM_THR", 0xFFFFFFFF, 0x0, 0x7F800000⟩,
    ⟨0xE04, "OPT_STAT", 0x0, 0xB, 0x0⟩,
    ⟨0xE08, "OPT_FAULT_SEQ", 0x0, 0x0, 0x0⟩ ] ++
  [ ⟨0xE10, "SMK_NONFIN_LO", 0x0, 0x0, 0x0⟩,
    ⟨0xE14, "SMK_NONFIN_HI", 0x0, 0x0, 0x0⟩,
    ⟨0xE18, "SMK_SAT_LO", 0x0, 0x0, 0x0⟩,
    ⟨0xE1C, "SMK_SAT_HI", 0x0, 0x0, 0x0⟩,
    ⟨0xE20, "SMK_SKIP", 0x0, 0x0, 0x0⟩,
    ⟨0xE24, "SMK_SPIKE", 0x0, 0x0, 0x0⟩,
    ⟨0xE28, "SMK_LOSS_CFG", 0xFF1F, 0x0, 0x1004⟩,
    ⟨0xE2C, "SMK_LOSS_RATIO", 0xFFFFFFFF, 0x0, 0x40000000⟩,
    ⟨0xE30, "SMK_LOSS_EWMA", 0xFFFFFFFF, 0x0, 0x0⟩,
    ⟨0xE34, "SMK_LOSS_LAST", 0x0, 0x0, 0x0⟩,
    ⟨0xE38, "SMK_LOSS_N", 0xFFFFFFFF, 0x0, 0x0⟩,
    ⟨0xE40, "ASH_CFG", 0xFFF07, 0x0, 0x0⟩,
    ⟨0xE44, "ASH_RING_LO", 0xFFFF0000, 0x0, 0x0⟩,
    ⟨0xE48, "ASH_RING_HI", 0xFFFFFFFF, 0x0, 0x0⟩,
    ⟨0xE4C, "ASH_RING_SIZE", 0x1F, 0x0, 0x6⟩,
    ⟨0xE50, "ASH_WR", 0x0, 0x0, 0x0⟩ ] ++
  [ ⟨0xE54, "ASH_SEAL_WR", 0x0, 0x0, 0x0⟩,
    ⟨0xE58, "ASH_SEALED", 0x0, 0x0, 0x0⟩,
    ⟨0xE5C, "ASH_DELTAS_LO", 0x0, 0x0, 0x0⟩,
    ⟨0xE60, "ASH_DELTAS_HI", 0x0, 0x0, 0x0⟩,
    ⟨0xF00, "LNK_CREFUSED", 0x0, 0x0, 0x0⟩,
    ⟨0xF08, "LNK_CTX_LO", 0x0, 0x0, 0x0⟩,
    ⟨0xF0C, "LNK_CTX_HI", 0x0, 0x0, 0x0⟩,
    ⟨0xF10, "LNK_CRX_LO", 0x0, 0x0, 0x0⟩,
    ⟨0xF14, "LNK_CRX_HI", 0x0, 0x0, 0x0⟩,
    ⟨0x1000, "ECC_STAT", 0x0, 0x7, 0x0⟩,
    ⟨0x1004, "ECC_CE_LO", 0x0, 0x0, 0x0⟩,
    ⟨0x1008, "ECC_CE_HI", 0x0, 0x0, 0x0⟩,
    ⟨0x100C, "ECC_UE", 0x0, 0x0, 0x0⟩,
    ⟨0x1010, "ECC_LAST_ADDR_LO", 0x0, 0x0, 0x0⟩,
    ⟨0x1014, "ECC_LAST_ADDR_HI", 0x0, 0x0, 0x0⟩,
    ⟨0x1018, "ECC_LAST_INFO", 0x0, 0x0, 0x0⟩ ] ++
  [ ⟨0x1020, "ECC_RAW_CMD", 0x0, 0x0, 0x0⟩,
    ⟨0x1024, "ECC_RAW_ADDR_LO", 0xFFFFFFE0, 0x0, 0x0⟩,
    ⟨0x1028, "ECC_RAW_ADDR_HI", 0x3, 0x0, 0x0⟩,
    ⟨0x102C, "ECC_RAW_STAT", 0x0, 0x0, 0x0⟩,
    ⟨0x1030, "ECC_RAW_DATA0", 0xFFFFFFFF, 0x0, 0x0⟩,
    ⟨0x1034, "ECC_RAW_DATA1", 0xFFFFFFFF, 0x0, 0x0⟩,
    ⟨0x1038, "ECC_RAW_DATA2", 0xFFFFFFFF, 0x0, 0x0⟩,
    ⟨0x103C, "ECC_RAW_DATA3", 0xFFFFFFFF, 0x0, 0x0⟩,
    ⟨0x1040, "ECC_RAW_DATA4", 0xFFFFFFFF, 0x0, 0x0⟩,
    ⟨0x1044, "ECC_RAW_DATA5", 0xFFFFFFFF, 0x0, 0x0⟩,
    ⟨0x1048, "ECC_RAW_DATA6", 0xFFFFFFFF, 0x0, 0x0⟩,
    ⟨0x104C, "ECC_RAW_DATA7", 0xFFFFFFFF, 0x0, 0x0⟩,
    ⟨0x1050, "ECC_RAW_CHK", 0xFFFF, 0x0, 0x0⟩,
    ⟨0x1080, "SWP_CMD", 0x0, 0x0, 0x0⟩,
    ⟨0x1084, "SWP_CFG", 0x37F, 0x0, 0x8⟩,
    ⟨0x1088, "SWP_BASE_LO", 0xFFFFF000, 0x0, 0x0⟩ ] ++
  [ ⟨0x108C, "SWP_BASE_HI", 0x7F, 0x0, 0x0⟩,
    ⟨0x1090, "SWP_LEN_LO", 0xFFFFF000, 0x0, 0x0⟩,
    ⟨0x1094, "SWP_LEN_HI", 0x7F, 0x0, 0x0⟩,
    ⟨0x1098, "SWP_STAT", 0x0, 0x4, 0x0⟩,
    ⟨0x109C, "SWP_POS_LO", 0x0, 0x0, 0x0⟩,
    ⟨0x10A0, "SWP_POS_HI", 0x0, 0x0, 0x0⟩,
    ⟨0x10A4, "SWP_CE", 0x0, 0x0, 0x0⟩,
    ⟨0x10A8, "SWP_UE", 0x0, 0x0, 0x0⟩,
    ⟨0x10AC, "SWP_FIRST_LO", 0x0, 0x0, 0x0⟩,
    ⟨0x10B0, "SWP_FIRST_HI", 0x0, 0x0, 0x0⟩,
    ⟨0x10B4, "SWP_LAST_LO", 0x0, 0x0, 0x0⟩,
    ⟨0x10B8, "SWP_LAST_HI", 0x0, 0x0, 0x0⟩,
    ⟨0x10BC, "SWP_UNWR_LO", 0x0, 0x0, 0x0⟩,
    ⟨0x10C0, "SWP_UNWR_HI", 0x0, 0x0, 0x0⟩,
    ⟨0x1100, "PWR_ENERGY_LO", 0x0, 0x0, 0x0⟩,
    ⟨0x1104, "PWR_ENERGY_HI", 0x0, 0x0, 0x0⟩ ] ++
  [ ⟨0x1108, "PWR_CH", 0x0, 0x0, 0x0⟩,
    ⟨0x1200, "EVR_CFG", 0x3F3F3F03, 0x0, 0x0⟩,
    ⟨0x1204, "EVR_SIZE", 0x1F, 0x0, 0x6⟩,
    ⟨0x1208, "EVR_BASE_LO", 0xFFFFF000, 0x0, 0x0⟩,
    ⟨0x120C, "EVR_BASE_HI", 0xFFFFFFFF, 0x0, 0x0⟩,
    ⟨0x1210, "EVR_SHADOW_LO", 0xFFFFFFFC, 0x0, 0x0⟩,
    ⟨0x1214, "EVR_SHADOW_HI", 0xFFFFFFFF, 0x0, 0x0⟩,
    ⟨0x1218, "EVR_WR", 0x0, 0x0, 0x0⟩,
    ⟨0x121C, "EVR_RD", 0xFFFFFFFF, 0x0, 0x0⟩,
    ⟨0x1220, "EVR_HOLDOFF", 0xFFFF, 0x0, 0x0⟩,
    ⟨0x1224, "EVR_STAT", 0x0, 0x2, 0x0⟩,
    ⟨0x1228, "EVR_LOST", 0x0, 0x0, 0x0⟩,
    ⟨0x1300, "LNT_CSTAT", 0x0, 0x0, 0x0⟩,
    ⟨0x1304, "LNT_CSEQ", 0x0, 0x0, 0x0⟩,
    ⟨0x1308, "OBS_SHARE", 0x0, 0x0, 0x0⟩,
    ⟨0x3FF00, "MTB_CNT_LO", 0x0, 0x0, 0x0⟩ ] ++
  [ ⟨0x3FF04, "MTB_CNT_HI", 0x0, 0x0, 0x0⟩ ]

/-- The global block and the mailbox registers (Tables ARC-6, STR-5, STR-15, CHK-4, MEM-8, LNK-11, ECC-9,
ECC-10, PWR-11, MOD-5, MOD-7, MOD-13, OBS-7). CHK_SUSPECTn, DMP_CL, PWR_AGE, HK_CH and the port blocks
are indexed and stand in `globalSpec`. -/
def globalRegs : List RegSpec :=
  [ ⟨0x100, "MTB_CNT_LO", 0x0, 0x0, 0x0⟩,
    ⟨0x104, "MTB_CNT_HI", 0x0, 0x0, 0x0⟩,
    ⟨0x108, "MTB_STAT", 0x0, 0xC, 0xFF00⟩,
    ⟨0x10C, "MTB_OFFSET", 0x0, 0x0, 0x0⟩,
    ⟨0x200, "STR_STAT", 0x0, 0x8, 0x0⟩,
    ⟨0x204, "STR_CMD", 0x0, 0x0, 0x0⟩,
    ⟨0x208, "STR_SEL", 0x0, 0x0, 0x0⟩,
    ⟨0x20C, "STR_POLICY", 0x0, 0x0, 0x0⟩,
    ⟨0x210, "STR_ID", 0x0, 0x0, 0x0⟩,
    ⟨0x214, "STR_STAGE_LEN", 0x1FFFFF, 0x0, 0x0⟩,
    ⟨0x218, "STR_DEBUG", 0x0, 0x0, 0x0⟩,
    ⟨0x240, "STR_PKEY0", 0x0, 0x0, 0x0⟩,
    ⟨0x244, "STR_PKEY1", 0x0, 0x0, 0x0⟩,
    ⟨0x248, "STR_PKEY2", 0x0, 0x0, 0x0⟩,
    ⟨0x24C, "STR_PKEY3", 0x0, 0x0, 0x0⟩,
    ⟨0x250, "STR_PKEY4", 0x0, 0x0, 0x0⟩ ] ++
  [ ⟨0x254, "STR_PKEY5", 0x0, 0x0, 0x0⟩,
    ⟨0x258, "STR_PKEY6", 0x0, 0x0, 0x0⟩,
    ⟨0x25C, "STR_PKEY7", 0x0, 0x0, 0x0⟩,
    ⟨0x260, "STR_PKEY8", 0x0, 0x0, 0x0⟩,
    ⟨0x264, "STR_PKEY9", 0x0, 0x0, 0x0⟩,
    ⟨0x268, "STR_PKEY10", 0x0, 0x0, 0x0⟩,
    ⟨0x26C, "STR_PKEY11", 0x0, 0x0, 0x0⟩,
    ⟨0x270, "STR_PKEY12", 0x0, 0x0, 0x0⟩,
    ⟨0x274, "STR_PKEY13", 0x0, 0x0, 0x0⟩,
    ⟨0x278, "STR_PKEY14", 0x0, 0x0, 0x0⟩,
    ⟨0x27C, "STR_PKEY15", 0x0, 0x0, 0x0⟩,
    ⟨0x280, "STR_PKEY16", 0x0, 0x0, 0x0⟩,
    ⟨0x284, "STR_PKEY17", 0x0, 0x0, 0x0⟩,
    ⟨0x288, "STR_PKEY18", 0x0, 0x0, 0x0⟩,
    ⟨0x28C, "STR_PKEY19", 0x0, 0x0, 0x0⟩,
    ⟨0x290, "STR_PKEY20", 0x0, 0x0, 0x0⟩ ] ++
  [ ⟨0x294, "STR_PKEY21", 0x0, 0x0, 0x0⟩,
    ⟨0x298, "STR_PKEY22", 0x0, 0x0, 0x0⟩,
    ⟨0x29C, "STR_PKEY23", 0x0, 0x0, 0x0⟩,
    ⟨0x600, "FLW_STAT", 0x0, 0x2, 0x0⟩,
    ⟨0x604, "FLW_WEAR_SEL", 0x3FFF, 0x0, 0x0⟩,
    ⟨0x608, "FLW_WEAR", 0x0, 0x0, 0x0⟩,
    ⟨0xC00, "CHK_SUSPECT_THR", 0xFF, 0x0, 0x3⟩,
    ⟨0xD00, "MEM_BAR2_BASE", 0x1FF, 0x0, 0x0⟩,
    ⟨0xD04, "MEM_BAR2_STAT", 0x0, 0x0, 0x0⟩,
    ⟨0x1000, "LNK_CFG", 0x0, 0x0, 0x0⟩,
    ⟨0x1004, "LNK_STAT", 0x0, 0x0, 0x0⟩,
    ⟨0x1008, "LNK_ID", 0x0, 0x0, 0x0⟩,
    ⟨0x100C, "LNK_PEERFAULT", 0x0, 0x0, 0x0⟩,
    ⟨0x1010, "LNK_DROP", 0x0, 0x0, 0x0⟩,
    ⟨0x1014, "LNK_GRANT", 0x0, 0x0, 0x0⟩,
    ⟨0x2000, "ECC_MOD_STAT", 0x0, 0x0, 0x0⟩ ] ++
  [ ⟨0x2004, "ECC_CHKTEST", 0x0, 0x0, 0x0⟩,
    ⟨0x2008, "ECC_UNUSABLE_LO", 0x0, 0x0, 0x0⟩,
    ⟨0x200C, "ECC_UNUSABLE_HI", 0x0, 0x0, 0x0⟩,
    ⟨0x2010, "ECC_SRAM_CE", 0xFFFFFFFF, 0x0, 0x0⟩,
    ⟨0x2014, "ECC_NOCH_CE", 0x0, 0x0, 0x0⟩,
    ⟨0x2018, "ECC_NOCH_UE", 0x0, 0x0, 0x0⟩,
    ⟨0x2020, "ECC_REP_SEL", 0xF03FF, 0x0, 0x0⟩,
    ⟨0x2024, "ECC_REP_WORD", 0x0, 0x0, 0x0⟩,
    ⟨0x2030, "ECC_CBIST_CMD", 0x0, 0x0, 0x0⟩,
    ⟨0x2034, "ECC_CBIST_STAT", 0x0, 0x800000, 0x0⟩,
    ⟨0x2100, "SWP_CMD", 0x0, 0x0, 0x0⟩,
    ⟨0x2104, "SWP_CFG", 0x37F, 0x0, 0x8⟩,
    ⟨0x2108, "SWP_BASE_LO", 0xFFFFF000, 0x0, 0x0⟩,
    ⟨0x210C, "SWP_BASE_HI", 0x7F, 0x0, 0x0⟩,
    ⟨0x2110, "SWP_LEN_LO", 0xFFFFF000, 0x0, 0x0⟩,
    ⟨0x2114, "SWP_LEN_HI", 0x7F, 0x0, 0x0⟩ ] ++
  [ ⟨0x2118, "SWP_STAT", 0x0, 0x4, 0x0⟩,
    ⟨0x211C, "SWP_POS_LO", 0x0, 0x0, 0x0⟩,
    ⟨0x2120, "SWP_POS_HI", 0x0, 0x0, 0x0⟩,
    ⟨0x2124, "SWP_CE", 0x0, 0x0, 0x0⟩,
    ⟨0x2128, "SWP_UE", 0x0, 0x0, 0x0⟩,
    ⟨0x212C, "SWP_FIRST_LO", 0x0, 0x0, 0x0⟩,
    ⟨0x2130, "SWP_FIRST_HI", 0x0, 0x0, 0x0⟩,
    ⟨0x2134, "SWP_LAST_LO", 0x0, 0x0, 0x0⟩,
    ⟨0x2138, "SWP_LAST_HI", 0x0, 0x0, 0x0⟩,
    ⟨0x213C, "SWP_UNWR_LO", 0x0, 0x0, 0x0⟩,
    ⟨0x2140, "SWP_UNWR_HI", 0x0, 0x0, 0x0⟩,
    ⟨0x3000, "PWR_STAT", 0x0, 0x0, 0x0⟩,
    ⟨0x3004, "PWR_CMD", 0x0, 0x0, 0x0⟩,
    ⟨0x3008, "PWR_CAP", 0x0, 0x0, 0x57804B0⟩,
    ⟨0x300C, "PWR_GRANT", 0x7FF, 0x0, 0x4B0⟩,
    ⟨0x3010, "PWR_IN", 0x0, 0x0, 0x0⟩ ] ++
  [ ⟨0x3014, "PWR_BUDGET", 0x0, 0x0, 0x0⟩,
    ⟨0x3018, "PWR_COORD_TOTAL", 0xFFFF, 0x0, 0x0⟩,
    ⟨0x301C, "PWR_COORD_CFG", 0xFFFFFFFF, 0x0, 0x1F40A01⟩,
    ⟨0x3020, "DMP_CFG", 0xFF7F, 0x0, 0x2840⟩,
    ⟨0x3024, "DMP_ILIM", 0x3FF03FF, 0x0, 0x2BC02BC⟩,
    ⟨0x3028, "PWR_BAND", 0x0, 0x0, 0x0⟩,
    ⟨0x302C, "PWR_GUARD", 0x0, 0x0, 0x0⟩,
    ⟨0x3030, "PWR_TLIM", 0x0, 0x0, 0x36E64⟩,
    ⟨0x3038, "PWR_UNATTR_LO", 0x0, 0x0, 0x0⟩,
    ⟨0x303C, "PWR_UNATTR_HI", 0x0, 0x0, 0x0⟩,
    ⟨0x3040, "PWR_IN_ENERGY_LO", 0x0, 0x0, 0x0⟩,
    ⟨0x3044, "PWR_IN_ENERGY_HI", 0x0, 0x0, 0x0⟩,
    ⟨0x3048, "PWR_DROOP_LO", 0x0, 0x0, 0x0⟩,
    ⟨0x304C, "PWR_DROOP_HI", 0x0, 0x0, 0x0⟩,
    ⟨0x3050, "HK_TRIG", 0x0, 0x0, 0x0⟩,
    ⟨0x3054, "HK_COALESCED", 0x0, 0x0, 0x0⟩ ] ++
  [ ⟨0x3060, "HK_DONE0", 0x0, 0xFFFFFFFF, 0x0⟩,
    ⟨0x3064, "HK_DONE1", 0x0, 0xFFFFFFFF, 0x0⟩,
    ⟨0x3068, "HK_DONE2", 0x0, 0xFFFFFFFF, 0x0⟩,
    ⟨0x306C, "HK_DONE3", 0x0, 0xFFFFFFFF, 0x0⟩,
    ⟨0x3070, "HK_DONE4", 0x0, 0xFFFFFFFF, 0x0⟩,
    ⟨0x3074, "HK_DONE5", 0x0, 0xFFFFFFFF, 0x0⟩,
    ⟨0x3078, "HK_DONE6", 0x0, 0xFFFFFFFF, 0x0⟩,
    ⟨0x4000, "MOD_ID", 0x0, 0x0, 0x1110009⟩,
    ⟨0x4004, "MOD_SERIAL_LO", 0x0, 0x0, 0x0⟩,
    ⟨0x4008, "MOD_SERIAL_HI", 0x0, 0x0, 0x0⟩,
    ⟨0x400C, "MOD_FW", 0x0, 0x0, 0x0⟩,
    ⟨0x4010, "MOD_SB", 0x0, 0x0, 0x0⟩,
    ⟨0x4014, "MOD_RST", 0x0, 0x0, 0x0⟩,
    ⟨0x4018, "MOD_RST_STAT", 0x0, 0x0, 0x0⟩,
    ⟨0x401C, "MOD_PCIE", 0x0, 0x0, 0x0⟩,
    ⟨0x4020, "MOD_DMA_TMO", 0xFFFF, 0x0, 0x32⟩ ] ++
  [ ⟨0x4100, "EVR_CFG", 0x3F3F3F03, 0x0, 0x0⟩,
    ⟨0x4104, "EVR_SIZE", 0x1F, 0x0, 0x6⟩,
    ⟨0x4108, "EVR_BASE_LO", 0xFFFFF000, 0x0, 0x0⟩,
    ⟨0x410C, "EVR_BASE_HI", 0xFFFFFFFF, 0x0, 0x0⟩,
    ⟨0x4110, "EVR_SHADOW_LO", 0xFFFFFFFC, 0x0, 0x0⟩,
    ⟨0x4114, "EVR_SHADOW_HI", 0xFFFFFFFF, 0x0, 0x0⟩,
    ⟨0x4118, "EVR_WR", 0x0, 0x0, 0x0⟩,
    ⟨0x411C, "EVR_RD", 0xFFFFFFFF, 0x0, 0x0⟩,
    ⟨0x4120, "EVR_HOLDOFF", 0xFFFF, 0x0, 0x0⟩,
    ⟨0x4124, "EVR_STAT", 0x0, 0x2, 0x0⟩,
    ⟨0x4128, "EVR_LOST", 0x0, 0x0, 0x0⟩,
    ⟨0x5000, "LNT_CTL", 0x0, 0x0, 0x0⟩,
    ⟨0x5004, "LNT_STAT", 0x0, 0xC, 0x0⟩,
    ⟨0x5008, "LNT_TIME_LO", 0xFFFFFFFF, 0x0, 0x0⟩,
    ⟨0x500C, "LNT_TIME_HI", 0xFFFFFFFF, 0x0, 0x0⟩,
    ⟨0x5010, "LNT_ID", 0x0, 0x0, 0x0⟩ ] ++
  [ ⟨0x5020, "ARB_CFG", 0xFFF, 0x0, 0x800⟩,
    ⟨0x2000000, "MBX_CMD", 0x0, 0x0, 0x0⟩,
    ⟨0x2000004, "MBX_STAT", 0x0, 0x2, 0x0⟩ ]

/-- One port block (Table LNK-12). -/
def portRegs : List RegSpec :=
  [ ⟨0x0, "LNK_PCTL", 0x0, 0x0, 0x0⟩,
    ⟨0x4, "LNK_PSTAT", 0x0, 0x10, 0x0⟩,
    ⟨0x8, "LNK_PCORR_LO", 0x0, 0x0, 0x0⟩,
    ⟨0xC, "LNK_PCORR_HI", 0x0, 0x0, 0x0⟩,
    ⟨0x10, "LNK_PUNCORR", 0x0, 0x0, 0x0⟩,
    ⟨0x14, "LNK_PREPLAY", 0x0, 0x0, 0x0⟩,
    ⟨0x18, "LNK_PTRAIN", 0x0, 0x0, 0x0⟩,
    ⟨0x1C, "LNK_PBER", 0x0, 0x0, 0x0⟩,
    ⟨0x20, "LNK_PTXF_LO", 0x0, 0x0, 0x0⟩,
    ⟨0x24, "LNK_PTXF_HI", 0x0, 0x0, 0x0⟩,
    ⟨0x28, "LNK_PRXF_LO", 0x0, 0x0, 0x0⟩,
    ⟨0x2C, "LNK_PRXF_HI", 0x0, 0x0, 0x0⟩,
    ⟨0x30, "LNK_PDISC", 0x0, 0x0, 0x0⟩ ]

/-- The debug block of a die (Table STR-17). -/
def dbgRegs : List RegSpec :=
  [ ⟨0x0, "DBG_CMD", 0x0, 0x0, 0x0⟩,
    ⟨0x4, "DBG_STAT", 0x0, 0x6, 0x0⟩,
    ⟨0x8, "DBG_ADDR_LO", 0xFFFFFFE0, 0x0, 0x0⟩,
    ⟨0xC, "DBG_ADDR_HI", 0x7FFF07, 0x0, 0x0⟩,
    ⟨0x20, "DBG_DATA0", 0x0, 0x0, 0x0⟩,
    ⟨0x24, "DBG_DATA1", 0x0, 0x0, 0x0⟩,
    ⟨0x28, "DBG_DATA2", 0x0, 0x0, 0x0⟩,
    ⟨0x2C, "DBG_DATA3", 0x0, 0x0, 0x0⟩,
    ⟨0x30, "DBG_DATA4", 0x0, 0x0, 0x0⟩,
    ⟨0x34, "DBG_DATA5", 0x0, 0x0, 0x0⟩,
    ⟨0x38, "DBG_DATA6", 0x0, 0x0, 0x0⟩,
    ⟨0x3C, "DBG_DATA7", 0x0, 0x0, 0x0⟩ ]

/-- The register at an offset of a list. -/
def specAt (l : List RegSpec) (off : Nat) : Option RegSpec := l.find? (fun r => r.off == off)

/-- The register at an offset of the chamber block. -/
def chmSpec (off : Nat) : Option RegSpec := specAt chmRegs off

/-- The register at a PF BAR0 offset outside the chamber blocks: the named global registers, the
indexed CHK_SUSPECTn (Table CHK-4), the port blocks (R305) and the two debug blocks (R61). -/
def globalSpec (off : Nat) : Option RegSpec :=
  if 0x800 ≤ off ∧ off < 0xC00 then some ⟨off, "CHK_SUSPECT", 0xFFFFFFFF, 0, 0⟩
  else if 0x1100 ≤ off ∧ off < 0x1100 + 0x40 * 24 then
    (specAt portRegs ((off - 0x1100) % 0x40)).map (fun r => { r with off := off })
  else if off = 0x400000 ∨ (0x400000 < off ∧ off < 0x400040) ∨ (0x800000 ≤ off ∧ off < 0x800040) then
    (specAt dbgRegs (off % 0x400000)).map (fun r => { r with off := off })
  else specAt globalRegs off

/-- A register after a write of all four bytes (Table SCP-4): RW bits take the written value, W1C bits
written 1 clear, every other bit keeps its value. -/
def RegSpec.write (r : RegSpec) (old v : W32) : W32 :=
  (old &&& ~~~r.rw &&& ~~~(r.w1c &&& v)) ||| (v &&& r.rw)

/-- The low words of the 64-bit counter pairs of the chamber block (R6). -/
def chmPairs : List Nat :=
  [0x50C, 0x518, 0x60C, 0x614, 0x620, 0x628, 0x71C, 0x728, 0x818, 0x820, 0x828, 0x830, 0x838, 0x848,
   0xC10, 0xE10, 0xE18, 0xE5C, 0xF08, 0xF10] ++
  [0x1004, 0x1010, 0x109C, 0x10AC, 0x10B4, 0x10BC, 0x1100, 0x3FF00] ++
  (List.range 8).map (fun k => 0xC48 + 0x20 * k) ++ (List.range 8).map (fun k => 0xC50 + 0x20 * k) ++
  (List.range 8).map (fun k => 0xC58 + 0x20 * k)

/-- The low words of the 64-bit counter pairs of the global block (R6). -/
def globalPairs : List Nat :=
  [0x100, 0x211C, 0x212C, 0x2134, 0x213C, 0x3038, 0x3040, 0x3048] ++
  (List.range 24).map (fun p => 0x1108 + 0x40 * p) ++ (List.range 24).map (fun p => 0x1120 + 0x40 * p) ++
  (List.range 24).map (fun p => 0x1128 + 0x40 * p)

/-- The values that chamber creation loads (the Reset columns of the chapters' tables). -/
def chmResetRegs : Tab W32 :=
  (chmRegs.filter (fun r => r.reset ≠ 0)).map (fun r => (r.off, r.reset))

end Sys2Proof.Machine
end

