-- ==== Sys2Proof/Machine/Chamber.lean ====
section
/-! DEFINITION. Chamber.lean: the states of a chamber (R48, R49, R409): creation, CLEARING, CHM_CTL, leaving for
UNDEFINED; invalidation (R181), key rotation (R59, R60, R183), and the debug path (R61, R62). -/
namespace Sys2Proof.Machine
open Sys2Proof

/-! ## Closing of proposals (R52, R56) -/

/-- The approval state of a scope. -/
def apvOf (s : State) (sc : Scope) : Apv :=
  match sc with
  | .module => s.apv
  | .chamber n => (chOf s n.val).apv

/-- Puts the approval state of a scope. -/
def putApv (sc : Scope) (a : Apv) (s : State) : State :=
  match sc with
  | .module => { s with apv := a }
  | .chamber n => modCh n.val (fun c => { c with apv := a }) s

/-- The event of a closure (Table STR-12). -/
def closeCode (result : Nat) : Nat :=
  match result with
  | 1 => 0x302
  | 2 => 0x303
  | 3 => 0x304
  | 4 => 0x305
  | 7 => 0x305
  | _ => 0x309

/-- A proposal closes with a RESULT: the buffer clears and the event of the closure is raised (R52). -/
def closeApv (sc : Scope) (result : Nat) (s : State) : State :=
  eventScope sc (closeCode result) []
    (putApv sc { apvOf s sc with state := .empty, buf := [], overflow := false, result := result } s)

/-- A chamber that enters CLEARING or leaves for UNDEFINED closes its open proposal (R56). -/
def supersede (n : Fin 32) (s : State) : State :=
  let st := (chOf s n.val).apv.state
  if st = .proposed ∨ st = .committing then closeApv (.chamber n) 7 s else s

/-! ## CLEARING (R48) -/

/-- Whether a core belongs to a chamber. -/
def ownsCore (c : Chamber) (core : Nat) : Bool := c.clusters.getLsbD (core / 16)

/-- Valid bits of the window and echo slice clear, the core stores become zero with good parity (R48,
R167, R174), and nothing is left in the lanes. -/
def clearMemory (c : Chamber) (s : State) : State :=
  { s with galValid := Tab.drop (fun k => ownsCore c (k / 0x80000)) s.galValid,
           core := Tab.drop (fun k => ownsCore c (k / 0x40000)) s.core,
           coreBad := Tab.drop (fun k => ownsCore c (k / 0x40000)) s.coreBad,
           engines := Tab.drop (ownsCore c) s.engines,
           tested := Tab.drop (fun cl => c.clusters.getLsbD cl) s.tested }

/-- The chamber registers that CHM_CTL.RESET clears: ENG-9 (R116), THR-9 (R165), MEM_STAT and MEM_FAULT
(R190), ECH_STAT and the echo fault registers (R212), OPS_STAT and OPS_FAULT (R239), PIP_STAT, PIP_MB and
the PIP counters (R258), OPT_STAT, OPT_FAULT_SEQ, ASH_WR and ASH_SEAL_WR (R279), LNK-13 (R306), ECC_STAT
(R334). -/
def resetClears (off : Nat) : Bool :=
  decide ((0x400 ≤ off ∧ off < 0x500) ∨ (0x600 ≤ off ∧ off < 0x700) ∨ off = 0x704 ∨ (0x718 ≤ off ∧ off < 0x728)) ||
  decide (off = 0x804 ∨ (0x844 ≤ off ∧ off < 0x850) ∨ (0x904 ≤ off ∧ off < 0x910) ∨ off = 0xC18) ||
  decide (0xC40 ≤ off ∧ off < 0xD40 ∧ off % 0x20 ≠ 0) ||
  decide (off = 0xE04 ∨ off = 0xE08 ∨ off = 0xE50 ∨ off = 0xE54 ∨ (0xF00 ≤ off ∧ off < 0xF20) ∨ off = 0x1000)

/-- An invalidation starts or is extended: it will put in force MEM_PTBASE as it now stands (R181). -/
def askInv (c : Chamber) : Chamber := { c with invBusy := true, ptNext := cpair 0x708 c }

/-- The end of an invalidation (R181): no cached entry stays, and the base written before it is in force. -/
def endInv (c : Chamber) : Chamber := { c with invBusy := false, ptbase := c.ptNext, tlb := [] }

/-- The operation, counter and stream state of CLEARING (R48, R210, R211, R215, R220, R227). -/
def clearState (c : Chamber) : Chamber :=
  { c with st := .clearing, counters := [], lists := [], turn := 0, ops := [], stopped := [], held := [], chains := [], streams := [],
           lines := [], oldTags := c.oldTags ++ c.reqs.map (·.tag), reqs := [], waitAlloc := [], ash := [],
           ashFrom := none, snap := none, stepDeltas := 0, stepUpdates := 0, stepSkips := 0, sealWr := 0, stallSeen := [],
           regs := cset 0xC08 (cget 0xC08 c &&& ~~~0x80#32) { c with regs := Tab.drop resetClears c.regs } |>.regs }

/-- A chamber's running sweep ends ABORTED when the chamber enters CLEARING or UNDEFINED (R319). -/
def abortSweep (n : Nat) (s : State) : State := swpAbort (.chamber (Fin.ofNat 32 n)) s

/-- A chamber enters CLEARING by RESET: proposal, sweep, discarded ACCUM lines (R211), state, memory, and the
invalidation of R181. -/
def enterClearing (n : Nat) (s : State) : State :=
  let s1 := abortSweep n (supersede (Fin.ofNat 32 n) s)
  let c := chOf s1 n
  let lost := c.lines.countP (fun l => l.st == .accum)
  let s2 := clearMemory c (setCh n (askInv (clearState (caddPair 0x838 lost c))) s1)
  ifdo (lost != 0) (event n 0xA08 0 [lost]) (dropGroups n s2)

/-- Retires the operations in RETIRING, whose work is complete (R232), with the waits on each one's counter evaluated
after its increment (R227). -/
def retireDone (n : Nat) (s : State) : State :=
  forAll ((chOf s n).ops.filter (fun o => o.state == .retiring)) (fun o t =>
    match opOf (chOf t n) o.seq with
    | some q => settle n (retireOp n q .ok t)
    | none => t) s

/-- A halt by CHM_CTL.HALT (R409): retirements under way complete before it takes hold (Table OPS-8). -/
def haltByCtl (n : Nat) (s : State) : State := haltCh n 0x206 (event n 0x206 0 [] (retireDone n s))

/-- CHM_CTL.RESET (R49, R409). -/
def resetChamber (n : Nat) (s : State) : State :=
  match (chOf s n).st with
  | .running => enterClearing n (retireDone n (haltByCtl n s))
  | .idle => enterClearing n (retireDone n s)
  | .halted => enterClearing n (retireDone n s)
  | _ => s

/-- OWNER_LOCK (R53). -/
def ownerLock (n : Nat) (s : State) : State :=
  if isIdle s n && !(chOf s n).ownerSet then modCh n (fun c => { c with ownerSet := true }) s else s

/-- ENABLE = 1 (R49, R409). -/
def enableChamber (n : Nat) (s : State) : State :=
  let c := chOf s n
  if c.st = .idle ∧ !(bit (flowAt s 1) 12 && !c.ownerSet) then settleAll n (setCh n { c with st := .running } s) else s

/-- A write of CHM_CTL (R409): OWNER_LOCK first, then one of RESET, HALT and ENABLE. -/
def writeChmCtl (n : Nat) (v : W32) (s : State) : State :=
  let s1 := ifdo (bit v 3) (ownerLock n) s
  if bit v 2 then resetChamber n s1
  else if bit v 1 then
    (if isIdle s1 n || isRunning s1 n then haltByCtl n s1 else s1)
  else if bit v 0 then enableChamber n s1
  else s1

/-- CLEARING_COMPLETE (R48, R409). -/
def execClearingComplete (ch : Fin 32) (s : State) : Host.Outcome State Fault Refusal :=
  let n := ch.val
  let c := chOf s n
  if c.st = .clearing then
    let c1 := if c.invBusy then endInv c else c
    let c2 := match c.haltPend with
      | some code => cset 0x4 (BitVec.ofNat 32 (code.toNat * 65536)) { c1 with st := .halted, haltPend := none }
      | none => { c1 with st := .idle }
    .next (event n 0x203 0 [] (setCh n c2 s))
  else .next s

/-! ## UNDEFINED and creation -/

/-- A chamber goes to UNDEFINED: proposal and sweep end, its keys and everything else of it are discarded
(R40, R56, R60). Tags that are still out stay out of use (R210). -/
def undefine (n : Nat) (s : State) : State :=
  if defined s n then
    let s1 := abortSweep n (supersede (Fin.ofNat 32 n) s)
    let c := chOf s1 n
    dropGroups n (setCh n { oldTags := c.oldTags ++ c.reqs.map (·.tag), nextTag := c.nextTag } s1)
  else s

/-- Creation of a chamber (R48, R49, R58): registers at their creation values, fresh keys, the bank of the
chamber at 0 (R394), and CLEARING. -/
def createChamber (i : Image) (r : ChRec) (s : State) : State :=
  let old := chOf s r.chamber
  let c := { chamberOf i r with regs := chmResetRegs, key := s.draws + 1, oldTags := old.oldTags, nextTag := old.nextTag }
  let s1 := clearMemory c { s with draws := s.draws + 2,
                                   banks := Tab.drop (fun k => k / 16 == 156 + r.chamber) s.banks }
  setCh r.chamber c s1

/-! ## Invalidation (R181) -/

/-- A write of MEM_CTL.INV = 1. -/
def startInv (n : Nat) (s : State) : State := modCh n askInv s

/-- INVALIDATION_COMPLETE (R181). -/
def execInvalidationComplete (ch : Fin 32) (s : State) : Host.Outcome State Fault Refusal :=
  if (chOf s ch.val).invBusy then .next (modCh ch.val endInv s) else .next s

/-! ## Rotation (R59, R60, R183) -/

/-- The lowest unit of a chamber's ranges at or above an address. -/
def nextUnit (c : Chamber) (p : Nat) : Option Nat :=
  c.ranges.foldl (fun (best : Option Nat) r =>
    let lo := r.1 * 2 ^ 30
    let hi := (r.1 + r.2) * 2 ^ 30
    if hi ≤ p then best
    else
      let a := max lo p
      match best with
      | none => some a
      | some b => some (min a b)) none

/-- A committed ROTATE (R59): fresh keys, and ROTATING. -/
def startRotation (n : Nat) (s : State) : State :=
  let c := chOf s n
  setCh n (cmod 0x14 (fun w => setBit w 3 true)
    { c with st := .rotating, oldKey := c.key, key := s.draws + 1, rotPtr := (nextUnit c 0).getD bulkSize })
    { s with draws := s.draws + 2 }

/-- The end of a rotation (R59). -/
def endRotation (n : Nat) (s : State) : State :=
  event n 0x308 0 [] (modCh n (fun c =>
    cmod 0x14 (fun w => setFld (setBit w 3 false) 15 8 ((fld w 15 8 + 1) % 256)) { c with st := .idle, oldKey := 0 }) s)

/-- ROTATION_UNIT_REWRITE (R183): the unit at MEM_ROT_PTR is read with the old keys and written with the new;
an uncorrectable unit keeps its error and its bytes are free (log entry 52). -/
def execRotationUnitRewrite (ch : Fin 32) (s : State) : Host.Outcome State Fault Refusal :=
  let n := ch.val
  let c := chOf s n
  if c.st = .rotating then
    let s1 := match nextUnit c c.rotPtr with
      | none => s
      | some p =>
        let e := Tab.get 0 (p / 64) s.bulkErr
        let r := bulkCheck (agent 4) p s
        let t := bulkPut c.key p (bulkUnit r.2 c.oldKey p) (bumpMem p 0 r.2)
        let t1 := if r.1 then t else { t with bulkErr := Tab.set 0 (p / 64) e t.bulkErr, bulkKey := Tab.set 0 (p / 64) 0 t.bulkKey }
        modCh n (fun d => { d with rotPtr := (nextUnit d (p + 64)).getD bulkSize }) t1
    .next (resumeWindow (if (nextUnit (chOf s1 n) (chOf s1 n).rotPtr).isNone then endRotation n s1 else s1))
  else .next s

/-! ## The debug path (R61, R62) -/

/-- Key of a register of a debug block. -/
def dbgKey (die off : Nat) : Nat := die * 0x100 + off

/-- A register of a debug block. -/
def dbgGet (s : State) (die off : Nat) : W32 := Tab.get 0 (dbgKey die off) s.dbg

/-- Sets a register of a debug block. -/
def dbgSet (die off : Nat) (v : W32) (s : State) : State := { s with dbg := Tab.set 0 (dbgKey die off) v s.dbg }

/-- The target of a debug read: ADDR, SPACE, CHAMBER, CORE (Table STR-17). -/
def dbgTarget (s : State) (die : Nat) : Nat × Nat × Nat × Nat :=
  let hi := dbgGet s die 0xC
  ((dbgGet s die 8).toNat + 2 ^ 32 * fld hi 1 0, fld hi 2 2, fld hi 12 8, fld hi 22 13)

/-- Where a debug read looks: core, offset, whether in the gallery; `none` where R62 refuses it. -/
def dbgPlace (s : State) (die : Nat) : Option (Nat × Nat × Bool) :=
  let t := dbgTarget s die
  let n := t.2.2.1
  let c := chOf s n
  if bit (dbgGet s die 4) 0 || !defined s n || c.st == .clearing || !bit (cget 0x14 c) 2 then none
  else if t.2.1 = 0 then
    if ownsCore c t.2.2.2 && dieOfCore t.2.2.2 == die && decide (t.1 < 0x40000) then some (t.2.2.2, t.1, false) else none
  else
    match winLoc s c t.1 with
    | some x => if dieOfCore x.1 = die then some (x.1, x.2, true) else none
    | none => none

/-- Puts DBG_DATA0 to 7. -/
def dbgPutData (die : Nat) (bs : Bytes) (s : State) : State :=
  (List.range 8).foldl (fun t i => dbgSet die (0x20 + 4 * i) (BitVec.ofNat 32 (at_ bs (4 * i) 4)) t) s

/-- Reads the 32 bytes of a debug target: the bytes, ZERO and ERR (R62). -/
def dbgFetch (core off : Nat) (gallery : Bool) (s : State) : (Bytes × Bool × Bool) × State :=
  if !gallery then ((coreRead core off 32 s, false, coreBadIn core off 32 s), s)
  else if !Tab.get false (galKey core off / 32) s.galValid then ((List.replicate 32 0, true, false), s)
  else
    match galWord (agent 6) core off s with
    | (some bs, t) => ((bs, false, false), t)
    | (none, t) => ((galStored core off s, false, true), t)

/-- A write of DBG_CMD.READ = 1 (R62). The word is read at once; BUSY holds until the command ends. -/
def dbgCommand (die : Nat) (s : State) : State :=
  match dbgPlace s die with
  | none => eventG 0x205 [(dbgGet s die 8).toNat, (dbgGet s die 0xC).toNat]
      (dbgSet die 4 (setBit (dbgGet s die 4) 2 true) s)
  | some (core, off, g) =>
    let r := dbgFetch core off g s
    let w := dbgGet r.2 die 4
    dbgPutData die r.1.1
      (dbgSet die 4 (setBit (setBit (setBit w 0 true) 3 r.1.2.1) 4 r.1.2.2) r.2)

/-- DEBUG_READ_COMPLETE (R62): BUSY clears and DONE sets. -/
def execDebugReadComplete (die : Fin 2) (s : State) : Host.Outcome State Fault Refusal :=
  let w := dbgGet s die.val 4
  if bit w 0 then .next (dbgSet die.val 4 (setBit (setBit w 0 false) 1 true) s) else .next s

end Sys2Proof.Machine
end

