-- ==== Sys2Proof/Machine/Approval.lean ====
section
/-! DEFINITION. Approval.lean: dual approval (R50 to R56): change buffers, proposals, approval records, commits
and their journal. -/
namespace Sys2Proof.Machine
open Sys2Proof

/-! ## Change buffers (R51, R53) -/

/-- The RWA fields of a register of a scope (R50, Tables STR-6 and STR-9). -/
def rwaMask (sc : Scope) (off : Nat) : Option W32 :=
  match sc with
  | .module =>
    if off = 0x208 then some 0x3
    else if off = 0x20C then some 0x1FFF
    else if off = 0x218 then some 0x1
    else if 0x240 ≤ off ∧ off < 0x2A0 ∧ off % 4 = 0 then some 0xFFFFFFFF
    else none
  | .chamber _ =>
    if off = 0x14 then some 0xF
    else if 0x40 ≤ off ∧ off < 0xA0 ∧ off % 4 = 0 then some 0xFFFFFFFF
    else none

/-- Whether an offset is CHM_OKEY0 to 23. -/
def isOkey (off : Nat) : Bool := decide (0x40 ≤ off ∧ off < 0xA0)

/-- The RWA fields of a register that may enter the buffer now: CHM_OKEY only with OWNER_SET = 1 (R53). -/
def bufMask (s : State) (sc : Scope) (off : Nat) : Option W32 :=
  match sc with
  | .module => rwaMask sc off
  | .chamber n => if isOkey off && !(chOf s n.val).ownerSet then none else rwaMask sc off

/-- Puts an entry in ascending offset, replacing an earlier one of the same register (R51). -/
def bufPut (off v : W32) : List (W32 × W32) → List (W32 × W32)
  | [] => [(off, v)]
  | (o, w) :: l =>
    if off = o then (off, v) :: l
    else if off.toNat < o.toNat then (off, v) :: (o, w) :: l
    else (o, w) :: bufPut off v l

/-- Whether a write to a scope's buffer is discarded because a proposal is PROPOSED or COMMITTING (R51). -/
def apvClosed (a : Apv) : Bool := a.state == .proposed || a.state == .committing

/-- Whether a write is a 33rd distinct register (R51). -/
def apvFull (a : Apv) (off : W32) : Bool := decide (32 ≤ a.buf.length) && !a.buf.any (fun e => e.1 == off)

/-- A write to an RWA register (R51). -/
def rwaWrite (sc : Scope) (off v : W32) (s : State) : State :=
  let a := apvOf s sc
  match bufMask s sc off.toNat with
  | none => s
  | some m =>
    if apvClosed a then s
    else if apvFull a off then putApv sc { a with overflow := true } s
    else putApv sc { a with state := .collecting, buf := bufPut off (v &&& m) a.buf } s

/-- A write of CHM_OKEY (R53). -/
def okeyWrite (n : Fin 32) (i : Nat) (v : W32) (s : State) : State :=
  if (chOf s n.val).ownerSet then rwaWrite (.chamber n) (BitVec.ofNat 32 (0x40 + 4 * i)) v s
  else if isIdle s n.val then setCreg n.val (0x40 + 4 * i) v s
  else s

/-! ## Proposals (R52, R42, R54) -/

/-- STR_PKEY0 to 23 as 96 bytes. -/
def pkeyBytes (s : State) : Bytes := (List.range 24).flatMap (fun i => natLe 4 (flowAt s (2 + i)).toNat)

/-- CHM_OKEY0 to 23 as 96 bytes. -/
def okeyBytes (c : Chamber) : Bytes := (List.range 24).flatMap (fun i => natLe 4 (cget (0x40 + 4 * i) c).toNat)

/-- Whether a scope has an owner party (R53, R54). -/
def hasOwner (s : State) (sc : Scope) : Bool :=
  match sc with
  | .module => (pkeyBytes s).any (· != 0)
  | .chamber n => (chOf s n.val).ownerSet

/-- The value that a change list gives a register, or the register's own. -/
def proposed (buf : List (W32 × W32)) (off : Nat) (old : W32) : W32 :=
  match buf.find? (fun e => e.1.toNat == off) with
  | some e => e.2
  | none => old

/-- Whether R42 or R54 forbids a module-scope change. -/
def moduleForbidden (s : State) (buf : List (W32 × W32)) : Bool :=
  let pol := flowAt s 1
  let new := proposed buf 0x20C pol
  let keys := (List.range 24).map (fun i => proposed buf (0x240 + 4 * i) (flowAt s (2 + i)))
  let allKeys := (List.range 24).all (fun i => buf.any (fun e => e.1.toNat == 0x240 + 4 * i))
  fld new 11 8 == 15 || decide (fld new 7 0 < fld pol 7 0) ||
  (buf.any (fun e => decide (0x240 ≤ e.1.toNat)) && keys.all (· == 0)) ||
  (!hasOwner s .module && !(allKeys && buf.length == 24))

/-- The flowstone target of a module-scope entry (Table STR-14). -/
def flowTarget (off : Nat) : Option Nat :=
  if off = 0x208 then some 0
  else if off = 0x20C then some 1
  else if 0x240 ≤ off ∧ off < 0x2A0 then some (2 + (off - 0x240) / 4)
  else none

/-- The flowstone targets of a change list with their values, in ascending index. -/
def flowTargets (sc : Scope) (buf : List (W32 × W32)) : List (Nat × W32) :=
  match sc with
  | .module => buf.filterMap (fun e => (flowTarget e.1.toNat).map (fun i => (i, e.2)))
  | .chamber _ => []

/-- Whether a target, or a journal word that the commit needs, is WORN (R52). -/
def apvWorn (s : State) (sc : Scope) (buf : List (W32 × W32)) : Bool :=
  let ts := flowTargets sc buf
  ts != [] && (ts.any (fun t => worn s t.1) || (List.range ts.length).any (fun i => worn s (26 + i)) || worn s 52 || worn s 53)

/-- Whether ROTATE or an OKEY replacement meets a chamber that is not IDLE (R52). -/
def apvBusy (s : State) (sc : Scope) (buf : List (W32 × W32)) : Bool :=
  match sc with
  | .module => false
  | .chamber n => !isIdle s n.val && buf.any (fun e => isOkey e.1.toNat || (e.1 == 0x14 && bit e.2 3))

/-- The RESULT with which R52 step 1 refuses a proposal; 0 for none. -/
def proposeRefusal (s : State) (sc : Scope) : Nat :=
  let a := apvOf s sc
  if a.buf = [] ∨ a.overflow then 8
  else if sc = .module ∧ moduleForbidden s a.buf then 8
  else if apvWorn s sc a.buf then 6
  else if apvBusy s sc a.buf then 5
  else 0

/-- H of a proposal (R52 step 2). -/
def apvHash (sc : Scope) (id : W32) (nonce : BitVec 128) (buf : List (W32 × W32)) : Bytes :=
  sha384 (natLe 1 (scopeCode sc) ++ natLe 4 id.toNat ++ natLe 16 nonce.toNat ++
    buf.flatMap (fun e => natLe 4 e.1.toNat ++ natLe 4 e.2.toNat))

/-- An accepted PROPOSE (R52 step 2). -/
def openProposal (sc : Scope) (s : State) : State :=
  let d := draw s
  let a := apvOf s sc
  let id : W32 := if a.id = 0xFFFFFFFF then 1 else a.id + 1
  let nonce : BitVec 128 := d.1.truncate 128
  eventScope sc 0x301 [] (putApv sc
    { a with state := .proposed, ownerIn := false, operatorIn := false, id := id, nonce := nonce,
             hash := apvHash sc id nonce a.buf, deadline := BitVec.ofNat 64 (now s + 60000000000),
             needOwner := hasOwner s sc } d.2)

/-- What a command of a party answers: a completion code, and a RESULT where one applies (R383). -/
abbrev ApvAnswer := Nat × Nat

/-- PROPOSE (R52 step 1). -/
def apvProposeOp (sc : Scope) (s : State) : ApvAnswer × State :=
  if apvClosed (apvOf s sc) then ((4, 0), s)
  else
    match proposeRefusal s sc with
    | 0 => ((0, 0), openProposal sc s)
    | r => ((4, r), closeApv sc r s)

/-- Starts the commit of a change list (R55): the journal and the targets go to flowstone. -/
def startCommit (sc : Scope) (s : State) : State :=
  let a := apvOf s sc
  let s1 := putApv sc { a with state := .committing } s
  let ts := flowTargets sc a.buf
  if ts = [] then s1
  else
    let vals := (List.range ts.length).map (fun i => (26 + i, (ts.getD i (0, 0)).2))
    let mask : W32 := BitVec.ofNat 32 ((ts.map (fun t => 2 ^ t.1)).sum)
    let check := crc32c (vals.flatMap (fun e => natLe 4 e.2.toNat) ++ natLe 4 mask.toNat)
    flowEnqueue (vals ++ [(53, check), (52, mask)] ++ ts ++ [(52, 0)]) { s1 with commit := some sc }

/-- Both records are in: the conditions are checked again, and the change commits or the proposal closes
(R52 step 6). -/
def tryCommit (sc : Scope) (s : State) : ApvAnswer × State :=
  let a := apvOf s sc
  if a.operatorIn && (a.ownerIn || !a.needOwner) then
    if apvWorn s sc a.buf then ((4, 6), closeApv sc 6 s)
    else if apvBusy s sc a.buf then ((4, 5), closeApv sc 5 s)
    else ((0, 0), startCommit sc s)
  else ((0, 0), s)

/-- The form check of a record (R52 step 5). -/
def recordForm (sc : Scope) (party : Nat) (r : Bytes) : Bool :=
  at_ r 0 4 == 0x52565041 && at_ r 4 1 == party && at_ r 5 1 == scopeCode sc && zeroAt r 6 2 && zeroAt r 0xC 4 &&
  zeroAt r 0xB0 16

/-- Whether a record's APV_ID, nonce and hash are the proposal's. -/
def recordMatches (a : Apv) (r : Bytes) : Bool :=
  at_ r 8 4 == a.id.toNat && at_ r 0x10 16 == a.nonce.toNat && slice r 0x20 48 == a.hash

/-- Whether an owner record's signature verifies under the owner's key (Table STR-10). -/
def ownerSigned (s : State) (sc : Scope) (r : Bytes) : Bool :=
  let key := match sc with
    | .module => pkeyBytes s
    | .chamber n => okeyBytes (chOf s n.val)
  ecdsaVerify key (sha384 (slice r 0 0x50)) (slice r 0x50 96)

/-- A record submitted to a scope by a party, 1 owner or 2 operator (R52 steps 4 to 6). -/
def apvSubmitOp (sc : Scope) (party : Nat) (r : Bytes) (s : State) : ApvAnswer × State :=
  let a := apvOf s sc
  if a.state ≠ .proposed then ((4, 0), s)
  else if a.deadline.toNat ≤ now s then ((4, 2), closeApv sc 2 s)
  else if !recordForm sc party r then ((2, 0), s)
  else if (if party = 1 then a.ownerIn else a.operatorIn) then ((4, 0), s)
  else if !recordMatches a r || (party == 1 && (!a.needOwner || !ownerSigned s sc r)) then
    ((4, 3), closeApv sc 3 s)
  else
    tryCommit sc (putApv sc
      (if party = 1 then { a with ownerIn := true } else { a with operatorIn := true }) s)

/-- CANCEL (R52). -/
def apvCancelOp (sc : Scope) (s : State) : ApvAnswer × State :=
  if (apvOf s sc).state = .proposed then ((0, 0), closeApv sc 4 s) else ((4, 0), s)

/-- DISCARD (R52, Table STR-11). -/
def apvDiscardOp (sc : Scope) (s : State) : ApvAnswer × State :=
  let a := apvOf s sc
  if a.state = .collecting then ((0, 0), putApv sc { a with state := .empty, buf := [], overflow := false } s)
  else ((4, 0), s)

/-- The owner record that stands in APV_REC. -/
def apvRec (a : Apv) : Bytes := (List.range 48).flatMap (fun i => natLe 4 (Tab.get 0 i a.record).toNat)

/-- A command through APV_CMD: one that R52 ignores, or whose record it discards, sets IGNORED. -/
def apvCommand (sc : Scope) (op : Nat) (s : State) : State :=
  let run : ApvAnswer × State :=
    match op with
    | 1 => apvProposeOp sc s
    | 2 => apvSubmitOp sc 1 (apvRec (apvOf s sc)) s
    | 3 => apvCancelOp sc s
    | 4 => apvDiscardOp sc s
    | _ => ((0, 0), s)
  if run.1 = (4, 0) ∨ run.1 = (2, 0) then putApv sc { apvOf run.2 sc with ignored := true } run.2 else run.2

/-- APV_DEADLINE (R52 step 4). -/
def execApvDeadline (scope : Scope) (s : State) : Host.Outcome State Fault Refusal :=
  let a := apvOf s scope
  if a.state = .proposed ∧ a.deadline.toNat ≤ now s then .next (closeApv scope 2 s) else .next s

/-! ## Commit (R55) -/

/-- The targets of a commit that lie outside flowstone take their values. -/
def commitEntry (sc : Scope) (e : W32 × W32) (s : State) : State :=
  match sc with
  | .module => if e.1 = 0x218 then gset 0x218 e.2 s else s
  | .chamber n =>
    if e.1 = 0x14 then
      let s1 := modCh n.val (cmod 0x14 (fun w => (w &&& ~~~0x7#32) ||| (e.2 &&& 0x7#32))) s
      ifdo (bit e.2 3) (startRotation n.val) s1
    else setCreg n.val e.1.toNat e.2 s

/-- APV_COMMIT_COMPLETE (R55): the journal is closed and the change is in force. A chamber that has left IDLE
since the second record closes a ROTATE or OKEY replacement with BUSY (log entry 49). -/
def execApvCommitComplete (scope : Scope) (s : State) : Host.Outcome State Fault Refusal :=
  let a := apvOf s scope
  if a.state = .committing then
    if flowTargets scope a.buf ≠ [] ∧ (s.flowBusy ∨ s.flowQueue ≠ []) then .next s
    else if apvBusy s scope a.buf then .next (closeApv scope 5 s)
    else
      let s1 := forAll a.buf (commitEntry scope) s
      .next (closeApv scope 1 { s1 with commit := none })
  else .next s

/-! ## The journal at start-up step 3 (R55) -/

/-- Replays a complete journal, or closes an incomplete one. -/
def replayJournal (s : State) : State :=
  let mask := flowAt s 52
  let idx := (bits32 mask).filter (· < 26)
  let vals := (List.range idx.length).map (fun i => flowAt s (26 + i))
  let check := crc32c (vals.flatMap (fun v => natLe 4 v.toNat) ++ natLe 4 mask.toNat)
  if mask = 0 then s
  else if check = flowAt s 53 then
    let ws := (List.zip idx vals).filter (fun e => flowAt s e.1 != e.2)
    flowEnqueue (ws ++ [(52, 0)]) (gsetBit 0x600 3 s)
  else flowEnqueue [(52, 0)] s

end Sys2Proof.Machine
end

