-- ==== Sys2Proof/Machine/Link.lean ====
section
/-! DEFINITION. Link.lean: reception of flits (R283 to R291, R296), TIME flits and the time base (R29, R30, R298,
R299), and port states and training (R301 to R305). -/
namespace Sys2Proof.Machine
open Sys2Proof

/-! ## Counters of a port -/

/-- Adds to a 16-bit field of a port register, saturating (R305). -/
def portField (p off hi lo n : Nat) (s : State) : State :=
  gmod (portReg p off) (fun w => setFld w hi lo (min (2 ^ (hi + 1 - lo) - 1) (fld w hi lo + n))) s

/-- LNK_PCTL.CLR: the port's counters clear (R305). -/
def clearPort (p : Nat) (s : State) : State :=
  let s1 := [0x08, 0x0C, 0x10, 0x14, 0x20, 0x24, 0x28, 0x2C, 0x30].foldl (fun t o => gset (portReg p o) 0 t) s
  gmod (portReg p 0x18) (fun w => setFld w 15 0 0) s1

/-! ## Codewords (R283, Table LNK-12) -/

/-- BER_EXP of a number of bit errors among a number of bits: the largest e with ratio ≤ 10^(−e/10); 255 without an
error (log entry 83). -/
def berExp (errs bits : Nat) : Nat :=
  (((List.range 256).reverse).find? (fun e => decide (errs ^ 10 * 10 ^ e ≤ bits ^ 10))).getD 0

/-- A codeword begins to be received: at most 15 symbol errors are corrected (R283). It is counted, and joins the
current second's bit errors, which LNK_PBER shows once the second is over. -/
def takeWord (p : Nat) (e : CwErr) (s : State) : State :=
  let q := portOf s p
  let s1 :=
    if q.berWords ≠ 0 ∧ q.berFrom.toNat + 1000000000 ≤ now s then
      gmod (portReg p 0x1C) (fun w => setFld w 7 0 (berExp q.berErrs (5440 * q.berWords)))
        (setPort p { q with berFrom := s.time, berWords := 1, berErrs := e.bits.toNat } s)
    else setPort p { q with berFrom := if q.berWords = 0 then s.time else q.berFrom,
                            berWords := q.berWords + 1, berErrs := q.berErrs + e.bits.toNat } s
  if e.symbols = 0 then s1
  else if e.symbols.toNat ≤ 15 then portPair p 0x08 1 s1
  else modPort p (fun q => { q with bad := (s.time :: q.bad).take 5 }) (portField p 0x10 31 0 1 s1)

/-- Whether a codeword with these errors is uncorrectable. -/
def wordBad (e : CwErr) : Bool := decide (15 < e.symbols.toNat)

/-- The codewords of the next flit of a port's stream (R283): whether one that holds bits of the flit is
uncorrectable, and the state. `errs` gives the errors of those that begin in it; one not given has none. -/
def takeWords (p : Nat) (errs : List CwErr) (s : State) : Bool × State :=
  let q := portOf s p
  let none_ : CwErr := { symbols := 0, bits := 0 }
  let first := errs.headD none_
  let begun := decide (q.rxBit ≠ 0)
  let bad0 := if begun then q.rxBad else wordBad first
  let next := if begun then first else errs.getD 1 none_
  let s1 := if begun then s else takeWord p first s
  let n := q.rxBit + 2048
  if n ≤ 5140 then
    (bad0, modPort p (fun k => { k with rxBit := n % 5140, rxBad := bad0 }) s1)
  else
    (bad0 || wordBad next, modPort p (fun k => { k with rxBit := n - 5140, rxBad := wordBad next }) (takeWord p next s1))

/-- Whether a flit passes its CRC (R285). -/
def crcOk (flit : Bytes) : Bool := at_ flit 252 4 == (crc32c (flit.take 252)).toNat

/-! ## Packets from a link (R287, R290, R291, R296) -/

/-- The packet that a lane of a port is receiving. -/
def incoming (s : State) (port lane : Nat) : Option Incoming := Tab.get none lane (portOf s port).rx

/-- Puts the packet that a lane is receiving. -/
def setIncoming (port lane : Nat) (k : Option Incoming) (s : State) : State :=
  modPort port (fun q => { q with rx := Tab.set none lane k q.rx }) s

/-- A packet for this module has arrived whole: it is delivered, and its receive-buffer bytes go with it. -/
def arriveWhole (port : Nat) (k : Incoming) (s : State) : State :=
  let p := pktOf (pieceBytes k.pieces)
  let p1 := { p with hops := p.hops + 1, die := dieOfPort port, held := k.pieces.flatMap pieceHeld }
  let s1 := bump (132 + port) 10 1 s
  if p1.ptype < 0x18 ∧ defined s p1.dstCh ∧ isPeer (chOf s p1.dstCh) p1.srcMod p1.srcCh then
    deliver p1 (bumpCh p1.dstCh 11 (pktLen p1) (modCh p1.dstCh (caddPair 0xF10 (pktLen p1)) s1))
  else deliver p1 s1

/-- A header as it is sent on: HOPS counts one more link (R296). -/
def countHop (bs : Bytes) : Bytes :=
  natLe 8 (at_ bs 0 8 + 2 ^ 5) ++ bs.drop 8

/-- Adds pieces to the packet that a port forwards into an output queue: the last one of its input. -/
def addPieces (input : Nat) (ps : List Piece) (l : List Queued) : List Queued :=
  match l.reverse.find? (fun k => k.input == input) with
  | some k => putQueued k (some { k with pieces := k.pieces ++ ps }) l
  | none => l

/-- Where the bytes of a packet go once its first 16 bytes are there (R291, R296): dropped for its type, length, route
or hops, kept for this module, or sent on. A packet from a link that is not for this module has traversed 6 links
at most (log entry 86). -/
def wayOf (k : Incoming) (s : State) : Way :=
  let p := pktOf (pieceBytes k.pieces)
  if !lenFits k.len p then .dropped
  else if isLocal s p then .here
  else if 6 ≤ p.hops + 1 then .dropped
  else
    match outPort (routeOf s p.dstMod) p with
    | some out => .onward out
    | none => .dropped

/-- Sets the way of a packet that a port receives: it is dropped and counted, kept, or enters an output queue. -/
def openWay (port lane : Nat) (k : Incoming) (s : State) : State :=
  match wayOf k s with
  | .dropped => setIncoming port lane (some { k with way := .dropped, pieces := [] }) (releasePieces k.pieces (dropPacket s))
  | .onward out =>
    let first := (k.pieces.headD { bytes := [], slot := none }).slot
    let hdr := countHop (pieceBytes k.pieces)
    -- the pieces keep their receive buffers; the header's bytes change in place
    let ps := (k.pieces.foldl (fun (a : List Piece × Bytes) e =>
      (a.1 ++ [{ e with bytes := a.2.take e.bytes.length }], a.2.drop e.bytes.length)) ([], hdr)).1
    let e : Queued := { input := 64 + port, since := s.time, len := k.len,
                        pieces := if ps = [] then [{ bytes := hdr, slot := first }] else ps }
    bump (132 + port) 9 1 (setIncoming port lane (some { k with way := .onward out, pieces := [] })
      (modPort out (fun q => { q with queues := Tab.set [] lane (Tab.get [] lane q.queues ++ [e]) q.queues }) s))
  | w => setIncoming port lane (some { k with way := w }) s

/-- Bytes of a packet beyond its first 16 go their way. -/
def passOn (port lane : Nat) (k : Incoming) (e : Piece) (s : State) : State :=
  match k.way with
  | .here => setIncoming port lane (some { k with pieces := k.pieces ++ [e], got := k.got + e.bytes.length }) s
  | .onward out =>
    setIncoming port lane (some { k with got := k.got + e.bytes.length })
      (modPort out (fun q =>
        let l := addPieces (64 + port) [e] (Tab.get [] lane q.queues)
        { q with queues := Tab.set [] lane l q.queues }) s)
  | _ => setIncoming port lane (some { k with got := k.got + e.bytes.length }) (releasePieces [e] s)

/-- A packet all of whose bytes have come is delivered if it is for this module, and its lane is free for the next. -/
def endPacket (port lane : Nat) (k : Incoming) (s : State) : State :=
  let s1 := setIncoming port lane none s
  match k.way with
  | .here => arriveWhole port k s1
  | _ => s1

/-- One stretch of a flit's packet bytes (R290): the rest of the flit, and the state. PTYPE 0 where a packet would begin,
and a LEN below 8, end the flit. -/
def takeStretch (port lane : Nat) (slot : Slot) (bs : Bytes) (s : State) : Bytes × State :=
  let k := (incoming s port lane).getD {}
  let drop := releaseSlot (slot, bs.length)
  if k.got = 0 ∧ at_ bs 0 1 % 32 = 0 then ([], drop s)
  else if k.got < 8 then
    let n := min (8 - k.got) bs.length
    let k1 := { k with pieces := k.pieces ++ [{ bytes := bs.take n, slot := some slot }], got := k.got + n }
    if k1.got < 8 then ([], setIncoming port lane (some k1) s)
    else
      let len := lenOf (pieceBytes k1.pieces)
      if len < 8 then ([], setIncoming port lane none (releaseSlot (slot, bs.length - n) (releasePieces k1.pieces (dropPacket s))))
      else (bs.drop n, setIncoming port lane (some { k1 with len := len }) s)
  else
    let head := min 16 k.len
    if k.way = .unknown then
      let n := min (head - k.got) bs.length
      let k1 := { k with pieces := k.pieces ++ [{ bytes := bs.take n, slot := some slot }], got := k.got + n }
      if k1.got < head then ([], setIncoming port lane (some k1) s)
      else
        let s1 := openWay port lane k1 s
        let k2 := (incoming s1 port lane).getD {}
        (bs.drop n, if k2.got = k2.len then endPacket port lane k2 s1 else s1)
    else
      let n := min (k.len - k.got) bs.length
      let s1 := passOn port lane k { bytes := bs.take n, slot := some slot } s
      let k1 := (incoming s1 port lane).getD {}
      (bs.drop n, if k1.got = k1.len then endPacket port lane k1 s1 else s1)

/-- The packet bytes of a flit, stretch by stretch. -/
def takeBytes (port lane : Nat) (slot : Slot) : Nat → Bytes → State → State
  | 0, bs, s => releaseSlot (slot, bs.length) s
  | n + 1, bs, s =>
    if bs = [] then s
    else
      let r := takeStretch port lane slot bs s
      takeBytes port lane slot n r.1 r.2

/-- The payload of an accepted DATA flit joins its lane's stream (R290): it is handed on at once, and its bytes before
the first packet that begins in it, where no packet is under way, are padding. -/
def takeFlit (port lane start : Nat) (payload : Bytes) (s : State) : State :=
  let q := portOf s port
  let n := Tab.get 0 lane q.rxCount
  let slot : Slot := { port := port, lane := lane, flit := n }
  let skip := if (incoming s port lane).isSome then 0 else min start payload.length
  let s1 := setPort port { q with rxCount := Tab.set 0 lane (n + 1) q.rxCount,
                                  rxLeft := Tab.set 0 (flitKey lane n) payload.length q.rxLeft } s
  let s2 := takeBytes port lane slot 256 (payload.drop skip) (releaseSlot (slot, skip) s1)
  forAll (List.range 24) (fun p t => if p = port then t else pump p pumpFuel t) s2

/-! ## Flit headers (R285 to R287) -/

/-- The flits that an ACK leaves in the replay buffer (R286). -/
def afterAck (ack : Nat) (l : List TxFlit) : List TxFlit :=
  if l.any (fun f => f.seq == ack) then (l.dropWhile (fun f => f.seq != ack)).drop 1 else l

/-- ACK and CRED of a received flit. -/
def takeHeader (port : Nat) (flit : Bytes) (s : State) : State :=
  let h := at_ flit 4 2
  let cvl := at_ flit 6 1 % 4
  modPort port (fun q =>
    let rest := if h / 0x1000 % 2 = 1 then afterAck (h % 4096) q.replay else q.replay
    { q with acked := Tab.set 0 cvl (at_ flit 7 1) q.acked, replay := rest,
             rep := q.rep.filter (fun n => rest.any (fun f => f.seq == n)) }) s

/-- A go-back-N replay from ACK + 1 begins (R286): its flits leave before new ones (R289). -/
def replayAll (port : Nat) (s : State) : State :=
  let l := (portOf s port).replay
  if l = [] then s
  else portField port 0x14 31 0 1 (modPort port (fun q => { q with rep := l.map (·.seq) }) s)

/-- What a received flit's header does: ACK, CRED, and a NAK's replay. -/
def heedHeader (port : Nat) (flit : Bytes) (s : State) : State :=
  let s1 := takeHeader port flit s
  if at_ flit 4 2 / 0x2000 % 2 = 1 then replayAll port s1 else s1

/-- The sequence number that the receiver takes next (log entry 55). -/
def expected (q : Port) : Nat := if q.rxAny then (q.rxSeq + 1) % 4096 else 0

/-- An in-order DATA flit is accepted (R286). -/
def acceptFlit (port : Nat) (flit : Bytes) (s : State) : State :=
  let s1 := modPort port (fun q => { q with rxSeq := at_ flit 2 2 % 4096, rxAny := true, nak := false }) s
  takeFlit port (at_ flit 0 1 / 4 % 4) (at_ flit 1 1) (slice flit 10 242) (bump (132 + port) 1 1 (portPair port 0x28 1 s1))

/-- Sends what can be sent; where no flit leaves, an IDLE flit carries ACK, NAK and CRED. -/
def answerFlit (port : Nat) (s : State) : State :=
  let s1 := pump port pumpFuel s
  if s1.out.length = s.out.length ∧ (portOf s1 port).st = .active then sendIdle port s1 else s1

/-- DATA_FLIT (R286). -/
def execDataFlit (port : Fin 24) (flit : Bytes) (errs : List CwErr) (s : State) : Host.Outcome State Fault Refusal :=
  let p := port.val
  if flit.length ≠ 256 then .fault .badLength
  else if (portOf s p).st ≠ .active then .next s
  else
    let w := takeWords p errs s
    if w.1 || !crcOk flit then .next (answerFlit p (modPort p (fun q => { q with nak := true }) w.2))
    else if at_ flit 0 1 % 4 ≠ 1 then .next w.2
    else
      let s1 := heedHeader p flit w.2
      if at_ flit 2 2 % 4096 = expected (portOf s1 p) then .next (answerFlit p (acceptFlit p flit s1))
      else .next (answerFlit p (modPort p (fun q => { q with nak := true }) s1))

/-- IDLE_FLIT (R285). -/
def execIdleFlit (port : Fin 24) (flit : Bytes) (errs : List CwErr) (s : State) : Host.Outcome State Fault Refusal :=
  let p := port.val
  if flit.length ≠ 256 then .fault .badLength
  else if (portOf s p).st ≠ .active then .next s
  else
    let w := takeWords p errs s
    if w.1 || !crcOk flit || at_ flit 0 1 % 4 != 0 then .next w.2
    else .next (pump p pumpFuel (heedHeader p flit w.2))

/-! ## The time base (R28 to R31, R298, R299) -/

/-- Whether the module is a time reference: its image names no time input port (R29). -/
def isReference (s : State) : Bool := s.img.timePort == 0xFF

/-- MTB_STAT.LOCKED of a measured offset (R29 step 3). -/
def setLocked (b : Bool) (s : State) : State := gmod 0x108 (fun w => setBit w 0 b) s

/-- MTB_OFFSET of an offset (Table ARC-7). -/
def offsetReg (o : Int) : W32 := BitVec.ofInt 32 (max (-(2 ^ 31 - 1)) (min (2 ^ 31 - 1) o))

/-- Whether a measured offset is corrected by a load (R28, R29 step 1): before the first chamber, and backward only
once. A message that returns after a loss before the first chamber loads too (log entry 87). -/
def loads (o : Int) (s : State) : Bool := !s.mtb.created && (decide (o ≤ 0) || !s.mtb.backDone)

/-- Corrects the counter by a measured offset, local minus reference (R28 to R30). -/
def correctTime (o : Int) (s : State) : State :=
  let near := decide (-50 ≤ o ∧ o ≤ 50)
  let s1 := setLocked near (gset 0x10C (offsetReg o) s)
  let target := BitVec.ofInt 64 ((now s : Int) - o)
  let slewTo := fun (k : Nat) (t : State) => { t with mtb := { t.mtb with slew := k } }
  let s2 :=
    if loads o s then
      slewTo 0 { s1 with time := target, mtb := { s1.mtb with backDone := s.mtb.backDone || decide (0 < o) } }
    else if o < -10000 then slewTo 0 (eventG 0x403 [] (gsetBit 0x108 2 { s1 with time := target }))
    else if near then slewTo 0 s1
    else slewTo (if o < 0 then 1 else 2) s1
  if near && s.mtb.lost then eventG 0x402 [] { s2 with mtb := { s2.mtb with lost := false } } else s2

/-- ((t1 − t2) + (t4 − t3)) / 2, rounded toward zero (R299). -/
def offsetOf (t1 t2 t3 t4 : Nat) : Int := Int.tdiv (((t1 : Int) - t2) + ((t4 : Int) - t3)) 2

/-- A time message on the time input port (R299): E_TX of 0, or a t1 more than 1 ms old, gives no
measurement. The silence of R30 is counted from the counter as the message leaves it. -/
def timeMessage (flit : Bytes) (s : State) : State :=
  let t1 := at_ flit 18 8
  let s1 :=
    if t1 = 0 ∨ t1 + 1000000 < now s then s
    else correctTime (offsetOf t1 (at_ flit 26 8) (at_ flit 10 8) (now s)) s
  { s1 with mtb := { s1.mtb with lastMsg := s1.time, silent := false } }

/-- TIME_FLIT (R298, R299). -/
def execTimeFlit (port : Fin 24) (flit : Bytes) (errs : List CwErr) (s : State) : Host.Outcome State Fault Refusal :=
  let p := port.val
  if flit.length ≠ 256 then .fault .badLength
  else if (portOf s p).st ≠ .active then .next s
  else
    let w := takeWords p errs s
    if w.1 || !crcOk flit || at_ flit 0 1 % 4 != 2 then .next w.2
    else
      let s1 := heedHeader p flit w.2
      let s2 := bump (132 + p) 11 1 (modPort p (fun q => { q with
        lastTx := BitVec.ofNat 64 (at_ flit 10 8), lastRx := s.time, peerStratum := BitVec.ofNat 8 (at_ flit 35 1) }) s1)
      .next (pump p pumpFuel (ifdo (s.img.timePort == p) (timeMessage flit) s2))

/-- TIME_INPUT_LOST (R30): no time message for 100 ms. -/
def execTimeInputLost (s : State) : Host.Outcome State Fault Refusal :=
  if !isReference s ∧ !s.mtb.silent ∧ s.mtb.lastMsg.toNat + 100000000 ≤ now s then
    let s1 := gsetBit 0x108 3 (setLocked false s)
    .next (eventG 0x401 [] { s1 with mtb := { s1.mtb with silent := true, lost := true, slew := 0 } })
  else .next s

/-- MTB_STAT.REFERENCE. -/
def referenceBit (s : State) : Bool := bit (gget 0x108 s) 1

/-- STRATUM of this module (R298), from MTB_STAT and the port that MTB_STAT names as time input. -/
def stratum (s : State) : Nat :=
  if referenceBit s then 0
  else if !bit (gget 0x108 s) 0 then 255
  else min 254 ((portOf s (fld (gget 0x108 s) 15 8)).peerStratum.toNat + 1)

/-- The payload of a TIME flit (R298). -/
def timePayload (s : State) (q : Port) : Bytes :=
  natLe 8 (now s) ++ natLe 8 q.lastTx.toNat ++ natLe 8 q.lastRx.toNat ++
  natLe 1 ((if referenceBit s then 1 else 0) + (if bit (gget 0x108 s) 0 then 2 else 0)) ++ natLe 1 (stratum s)

/-- TIME_FLIT_SEND (R298): the TIME flit that is due leaves first, and then what waited behind it (R289). -/
def execTimeFlitSend (port : Fin 24) (s : State) : Host.Outcome State Fault Refusal :=
  let p := port.val
  let q := portOf s p
  if q.st = .active ∧ timeDue q s then
    let q1 := turnCvl q
    let f := flitBytes (flitHeader 2 0 0xFF 0 q1) (timePayload s q)
    let q2 := { q1 with sinceVl3 := q.sinceVl3 + 1, nextTime := BitVec.ofNat 64 (now s + 10000) }
    .next (pump p pumpFuel (sendFlit p f (setPort p q2 s)))
  else .next s

/-! ## Port states and training (R301 to R304) -/

/-- First flowstone word of a port's calibration (R302). -/
def calBase (p : Nat) : Nat := 192 + 8 * p

/-- Whether a port's calibration is blank. -/
def calBlank (s : State) (p : Nat) : Bool := (List.range 8).all (fun i => flowAt s (calBase p + i) == 0)

/-- Starts a training: a TRAIN flit leaves, which carries ACK and CRED as every flit does (R285). -/
def startTraining (p : Nat) (st : PortState) (cause : TrainCause) (full : Bool) (failed : Nat) (s : State) : State :=
  let q := turnCvl { portOf s p with st := st, cause := cause, full := full, failed := failed }
  sendFlit p (flitBytes (flitHeader 3 0 0xFF 0 q) Config.trainPayload) (emit (.train p full) (setPort p q s))

/-- A port leaves ACTIVE for RECOVERY: nothing is discarded, and a fast training starts (R301, R304). Under a
module-fatal fault ports stay in their states (R333). -/
def toRecovery (p : Nat) (s : State) : State :=
  if (portOf s p).st = .active ∧ !isFatal s then startTraining p .recovery .recovery false 0 s else s

/-- CODEWORD_ERROR_BURST (R283): more than 4 uncorrectable codewords within 1 µs. -/
def execCodewordErrorBurst (port : Fin 24) (s : State) : Host.Outcome State Fault Refusal :=
  let bad := (portOf s port.val).bad
  if bad.length = 5 ∧ (bad.headD 0).toNat ≤ (bad.getLastD 0).toNat + 1000 then
    .next (toRecovery port.val (modPort port.val (fun q => { q with bad := [] }) s))
  else .next s

/-- REPLAY_LIMIT (R286): a flit resent 16 times without the ACK passing it. Its count starts again with the recovery
(log entry 88). -/
def execReplayLimit (port : Fin 24) (s : State) : Host.Outcome State Fault Refusal :=
  if (portOf s port.val).replay.any (fun f => decide (16 ≤ f.resends)) then
    .next (toRecovery port.val
      (modPort port.val (fun q => { q with replay := q.replay.map (fun f => { f with resends := 0 }) }) s))
  else .next s

/-- LANE_LOCK_LOSS (R301). -/
def execLaneLockLoss (port : Fin 24) (s : State) : Host.Outcome State Fault Refusal :=
  .next (toRecovery port.val s)

/-- The peer has started training (R303): a port in RECOVERY stays in that recovery, with the failed trainings it has
had (R302). -/
def peerTrains (p : Nat) (s : State) : State :=
  let q := portOf s p
  match q.st with
  | .active => startTraining p .training .peer false 0 s
  | .recovery => startTraining p .training .recovery q.full q.failed s
  | .down => if q.enabled then startTraining p .training .down true 0 s else s
  | _ => s

/-- TRAIN_FLIT (R285, R303): its ACK and CRED are heeded, and the port trains. -/
def execTrainFlit (port : Fin 24) (flit : Bytes) (errs : List CwErr) (s : State) : Host.Outcome State Fault Refusal :=
  let p := port.val
  if flit.length ≠ 256 then .fault .badLength
  else if (portOf s p).st = .disabled then .next s
  else
    let w := takeWords p errs s
    if w.1 || !crcOk flit || at_ flit 0 1 % 4 != 3 then .next w.2
    else
      let t := takeHeader p flit w.2
      .next (if isFatal t then t else peerTrains p t)

/-- LNK_PCTL.RETRAIN (R303; log entry 56 for a RETRAIN from DOWN). -/
def retrainPort (p : Nat) (full : Bool) (s : State) : State :=
  match (portOf s p).st with
  | .active => startTraining p .training .retrain full 0 s
  | .recovery => startTraining p .training .retrain full 0 s
  | .down => startTraining p .training .down true 0 s
  | _ => s

/-- DOWN_RETRY (R302): every 1 s. -/
def execDownRetry (port : Fin 24) (s : State) : Host.Outcome State Fault Refusal :=
  let q := portOf s port.val
  if q.st = .down ∧ q.enabled ∧ !isFatal s ∧ q.nextTime.toNat ≤ now s then
    .next (startTraining port.val .training .down true 0 s)
  else .next s

/-- Whether a port is training, and may end it: not under a module-fatal fault (R333). -/
def isTraining (q : Port) (s : State) : Bool := (q.st == .training || q.st == .recovery) && !isFatal s

/-- TRAINING_FAILED (R302): after two failed fast trainings of one RECOVERY comes a full one; another failed fast
training is retried; a failed full training leads to DOWN. -/
def execTrainingFailed (port : Fin 24) (s : State) : Host.Outcome State Fault Refusal :=
  let p := port.val
  let q := portOf s p
  if !isTraining q s then .next s
  else if q.full then
    let q1 := { q with st := .down, failed := 0, nextTime := BitVec.ofNat 64 (now s + 1000000000) }
    .next (eventG 0xE04 [] (setPort p q1 s))
  else .next (startTraining p q.st q.cause (q.cause == .recovery && decide (1 ≤ q.failed)) (q.failed + 1) s)

/-- A lane's queue without the packet of which a part has been sent. -/
def unsentOnly (l : List Queued) : List Queued := l.filter (fun k => k.sent = 0)

/-- Held state is discarded when a LINK_ID has changed (R304): counts, event, credits of Table LNK-3; the
sequence numbers start again (log entry 55). The rest of a packet whose first part was sent goes too, and a
packet from this port that another forwards stays as far as it came (log entry 89). -/
def discardHeld (p : Nat) (s : State) : State :=
  let q := portOf s p
  let partials := q.rx.countP (fun e => e.2.isSome)
  let s1 := setPort p { q with rx := [], rxLeft := [], replay := [], rep := [], sent := [], acked := [], freed := [],
                               reported := [], txSeq := 0, rxSeq := 0, rxAny := false, nak := false,
                               queues := (q.queues.map (fun e => (e.1, unsentOnly e.2))).filter (fun e => e.2 != []) } s
  eventG 0xE06 [partials, q.replay.length]
    (gsetBit (portReg p 4) 4 (portField p 0x30 15 0 partials (portField p 0x30 31 16 q.replay.length s1)))

/-- The port resumes by replay (R304). -/
def resumePort (p : Nat) (ack : Option (BitVec 12)) (s : State) : State :=
  let s1 := match ack with
    | some a => modPort p (fun q => { q with replay := afterAck a.toNat q.replay }) s
    | none => s
  replayAll p s1

/-- Writes a port's calibration after a full training, where it changed, once per cold start (R302). -/
def saveCal (p : Nat) (cal : List W32) (s : State) : State :=
  let ws := ((List.range 8).map (fun i => (calBase p + i, cal.getD i 0))).filter (fun e => flowAt s e.1 != e.2)
  if (portOf s p).calDone ∨ ws = [] then s
  else flowEnqueue ws (modPort p (fun q => { q with calDone := true }) s)

/-- The event of a return to ACTIVE (R302). -/
def returnEvent (cause : TrainCause) (s : State) : State :=
  match cause with
  | .down => eventG 0xE05 [] s
  | .recovery => eventG 0xE03 [] s
  | .retrain => eventG 0xE03 [] s
  | _ => s

/-- The last SEQ that the receiver of a port has taken, which it reports in training (R301, R304). -/
def reportedAck (q : Port) : Option Nat := if q.rxAny then some q.rxSeq else none

/-- A port is ACTIVE with a peer: the stream of codewords begins anew (R283, log entry 83), and the first TIME flit is
due. -/
def goActive (p : Nat) (peer : TrainResult) (s : State) : State :=
  modPort p (fun r => { r with
    st := .active, failed := 0, peerModule := peer.module, peerPort := peer.port, peerLink := some peer.linkId,
    ownLink := s.linkId, nextTime := s.time, rxBit := 0, rxBad := false, bad := [], txLine := 0, txBits := 0 }) s

/-- TRAINING_COMPLETE (R301, R302, R304): the last training step exchanges LINK_IDs and ACKs. -/
def execTrainingComplete (port : Fin 24) (peer : TrainResult) (s : State) : Host.Outcome State Fault Refusal :=
  let p := port.val
  let q := portOf s p
  if !isTraining q s then .next s
  else
    let s0 := emit (.trainEnd p s.linkId s.img.moduleId (reportedAck q)) s
    let s1 := portField p 0x18 15 0 1 (gmod (portReg p 0x18) (fun w => setFld w 31 16 peer.duration.toNat) s0)
    let s3 := goActive p peer (ifdo q.full (saveCal p peer.cal) s1)
    let s4 := match q.peerLink with
      | none => s3
      | some l => if l = peer.linkId ∧ q.ownLink = s.linkId then resumePort p peer.ack s3 else discardHeld p s3
    .next (pump p pumpFuel (returnEvent q.cause s4))

/-- A port goes to DISABLED (Table LNK-10). -/
def disablePort (p : Nat) (s : State) : State := modPort p (fun q => { q with st := .disabled, enabled := false }) s

/-- Every port goes to DISABLED. -/
def disableAll (s : State) : State := forAll (List.range 24) disablePort s

/-- Whether start-up found a failing channel checker (ECC_CHKTEST.BULK_FAIL): until a cold start the module offers only
the PF's registers and the management interface (R321). -/
def channelFailed (s : State) : Bool := bit (gget 0x2004 s) 1

/-- Trains the ports of a mask, each fast unless its calibration is blank (R302); none under a module-fatal fault, where
ports stay in their states (R333), nor after a failed channel checker (R321). -/
def trainPorts (mask : W32) (s : State) : State :=
  if isFatal s || channelFailed s then s
  else forAll ((List.range 24).filter (fun p => bit mask p)) (fun p t =>
    startTraining p .training .startUp (calBlank t p) 0 (modPort p (fun q => { q with enabled := true }) t)) s

/-- A new LINK_ID (R301). -/
def newLinkId (s : State) : State :=
  let d := draw s
  { d.2 with linkId := d.1.truncate 32 }

end Sys2Proof.Machine
end

