-- ==== Sys2Proof/Machine/Load.lean ====
section
/-! DEFINITION. Load.lean: loading of the structure image and creation of the chambers (R37, R39, R48), reload
(R40), programming of slots (R41), and what a new image gives the other parts: time input port, ports, clocks
and cap. -/
namespace Sys2Proof.Machine
open Sys2Proof

/-! ## Limits in force (R367) -/

/-- A field of flowstone word 384, or its default where it is outside its range or the word is blank. -/
def tlimField (s : State) (hi lo least most dflt : Nat) : Nat :=
  let v := fld (flowAt s 384) hi lo
  if least ≤ v ∧ v ≤ most then v else dflt

/-- THROTTLE in °C. -/
def throttle (s : State) : Nat := tlimField s 7 0 90 100 100
/-- TRIP in °C. -/
def tripTemp (s : State) : Nat := tlimField s 15 8 95 110 110
/-- HYST in °C. -/
def hyst (s : State) : Nat := tlimField s 19 16 1 10 3
/-- CAP_MAX in W. -/
def capMax (s : State) : Nat := tlimField s 30 20 500 1400 1400

/-- The cap in force. -/
def capOf (s : State) : Nat := fld (gget 0x3008 s) 10 0

/-- Puts a cap in force, limited to CAP_MAX (R359). -/
def putCap (w : Nat) (s : State) : State := gmod 0x3008 (fun r => setFld r 10 0 (min w (capMax s))) s

/-! ## Islands (R348, R355, R368) -/

/-- Cluster `c`'s island. -/
def clusterOf (s : State) (c : Nat) : Cluster := Tab.get {} c s.clusters

/-- Puts a cluster's island. -/
def setCluster (c : Nat) (v : Cluster) (s : State) : State := { s with clusters := Tab.set {} c v s.clusters }

/-- Changes a cluster's island. -/
def modCluster (c : Nat) (f : Cluster → Cluster) (s : State) : State := setCluster c (f (clusterOf s c)) s

/-- Every island stands at the limit of the image's CLOCKS section (R338 phase PU6, R348), but for those of excluded and
unusable clusters, which stop (R331). -/
def raiseIslands (s : State) : State :=
  let s1 := forAll (List.range 64) (fun c => modCluster c (fun k =>
    let f := s.img.clusterF.getD c 24
    if isolated s c then {}
    else { k with limit := f, fcode := f, tcode := f, change := .none, lowSince := none, maxSince := none })) s
  let put := fun (i f : Nat) (t : State) => { t with islandF := Tab.set 0 i f t.islandF }
  let s2 := forAll [0, 1] (fun d t => put (47 * d + 32) (s.img.fabricF.getD d 24)
    (put (47 * d + 33) (s.img.teF.getD d 24) (put (47 * d + 34) (s.img.mcF.getD d 24) t))) s1
  forAll (List.range 24) (fun p t => put (47 * (p / 12) + 35 + p % 12) (s.img.linkF.getD p 24) t) s2

/-! ## Loading (R37, R39) -/

/-- The cause that R37 and R38 give for a slot's image, 0 for none. -/
def loadCause (s : State) (bs : Bytes) : Nat :=
  match firstFailed (flowAt s 1) bs with
  | 0 => if semanticOk (BitVec.ofNat 64 (gpair 0x2008 s)) bs then 0 else 6
  | k => k

/-- STR_STAT's VALID, FALLBACK, SLOT and CAUSE. -/
def putStrStat (fallback : Bool) (slot cause : Nat) (s : State) : State :=
  gmod 0x200 (fun w => setFld (setFld (setBit (setBit w 0 true) 1 fallback) 5 4 slot) 11 8 cause) s

/-- Loads the image of the slot that STR_SEL names, or the factory image (R37, R39). -/
def loadImage (s : State) : State :=
  let slot := fld (flowAt s 0) 1 0
  let bs := Tab.get [] slot s.slots
  match loadCause s bs with
  | 0 => putStrStat false slot 0 { s with img := imageOf bs, imgDigest := imageDigest bs }
  | k => eventG 0x201 [] (putStrStat true 0 k
      { s with img := factoryImage (BitVec.ofNat 64 (gpair 0x2008 s)), imgDigest := Config.factoryDigest })

/-- MTB_STAT's REFERENCE and TIME_PORT follow a newly loaded image (R29, R31); not at a warm reset, which
leaves the registers unchanged (log entry 57). LOCKED reads 1 on a reference; a time input that has changed has no
measured offset, so LOCKED reads 0 until its first message (R29 step 3). -/
def takeTimePort (s : State) : State :=
  let ref := isReference s
  let same := decide (fld (gget 0x108 s) 15 8 = s.img.timePort)
  let locked := fun (w : W32) => if ref then setBit w 0 true else if same then w else setBit w 0 false
  let s1 := gmod 0x108 (fun w => setFld (setBit (locked w) 1 ref) 15 8 s.img.timePort) s
  let s2 := if ref then gset 0x10C 0 s1 else s1
  { s2 with mtb := { s2.mtb with lastMsg := s.time, slew := 0, silent := false, lost := false } }

/-- The cap of the loaded image (R359): Ready entry and reload. -/
def takeCapInit (s : State) : State :=
  putCap s.img.capInit { s with power := { s.power with capFromGrant := false, pending := none } }

/-- Creates the chambers of the loaded image; none where a channel checker failed (R321). -/
def createAll (s : State) : State :=
  if channelFailed s then s
  else
    let s1 := forAll s.img.chambers (createChamber s.img) s
    { s1 with mtb := { s1.mtb with created := true } }

/-- Every chamber goes to UNDEFINED. -/
def undefineAll (s : State) : State := forAll allCh undefine s

/-- Every port goes to DISABLED and the ports of the image train under a new LINK_ID (R301). -/
def retrainAll (s : State) : State :=
  let s1 := newLinkId (disableAll s)
  trainPorts s1.img.portEn s1

/-- What a reload and a warm reset share (R40, R390 step 4). -/
def reloadShape (s : State) : State :=
  let s1 := retrainAll (loadImage s)
  raiseIslands (createAll s1)

/-- Whether every defined chamber is IDLE or HALTED (R40). -/
def reloadReady (s : State) : Bool :=
  allCh.all (fun n => !defined s n || isIdle s n || (chOf s n).st == .halted)

/-- STR_CMD.OP = RELOAD (R40). -/
def reloadModule (s : State) : State :=
  if reloadReady s then
    eventG 0x202 [] (takeCapInit (takeTimePort (reloadShape (undefineAll (cbistStop s)))))
  else gsetBit 0x200 3 s

/-! ## Programming (R41) -/

/-- STR_STAT.PROG. -/
def putProg (k : Nat) (s : State) : State := gmod 0x200 (fun w => setFld w 15 12 k) s

/-- STR_CMD.OP = PROGRAM (R41). -/
def programSlot (slot : Nat) (s : State) : State :=
  if s.prog.isSome ∨ slot = fld (flowAt s 0) 1 0 then
    eventG 0x204 [slot, 7] (putProg 7 (gsetBit 0x200 3 s))
  else { s with prog := some (slot, memRead s.staging 0 (fld (gget 0x214 s) 20 0)) }

/-- The check that a staged image fails first; check 1 also asks that TOTAL_SIZE is STR_STAGE_LEN (R41). -/
def stagedFailed (s : State) (bs : Bytes) : Nat :=
  if totalSize bs ≠ bs.length then 1 else firstFailed (flowAt s 1) bs

/-- PROGRAM_COMPLETE (R41). -/
def execProgramComplete (s : State) : Host.Outcome State Fault Refusal :=
  match s.prog with
  | none => .next s
  | some (slot, bs) =>
    let s1 := { s with prog := none }
    match stagedFailed s bs with
    | 0 => .next (eventG 0x204 [slot, 15] (putProg 15 { s1 with slots := Tab.set [] slot bs s1.slots }))
    | k => .next (eventG 0x204 [slot, k] (putProg k s1))

/-- A write of STR_CMD (Table STR-6). -/
def writeStrCmd (v : W32) (s : State) : State :=
  match fld v 3 0 with
  | 1 => reloadModule s
  | 2 => programSlot (fld v 5 4) s
  | _ => s

end Sys2Proof.Machine
end

