-- ==== Sys2Proof/Machine/Power.lean ====
section
/-! DEFINITION. Power.lean: power states, requests, power-up and power-down (R336 to R341), trips (R341),
start-up (R385, R387, R391) and the ageing guard (R352 to R355). -/
namespace Sys2Proof.Machine
open Sys2Proof

/-- Changes every listed value of a table, keeping its canonical form. -/
def mapTab {β : Type} [DecidableEq β] (d : β) (f : β → β) (t : Tab β) : Tab β :=
  (t.map (fun e => (e.1, f e.2))).filter (fun e => decide (e.2 ≠ d))

/-- Changes the power manager's state. -/
def modPower (f : Power → Power) (s : State) : State := { s with power := f s.power }

/-- Enters a phase. -/
def setPhase (p : Phase) (s : State) : State := modPower (fun q => { q with phase := p }) s

/-- Whether the module is in Ready or Active (Table PWR-1). -/
def isReady (s : State) : Bool := s.power.phase == .ready

/-- PWR_STAT.STATE (Table PWR-1): in a sequence, the state it left; Active with an operation EXECUTING. -/
def stateCode (s : State) : Nat :=
  match s.power.phase with
  | .off => 0
  | .offDwell => 0
  | .startUp => 0
  | .standby => 1
  | .toOff => 1
  | .pu _ => 1
  | .ready => if anyExecuting s then 3 else 2
  | .pd _ => 2

/-- Whether a sequence runs (PWR_STAT.SEQ). -/
def inSequence (s : State) : Bool :=
  match s.power.phase with
  | .startUp => true
  | .toOff => true
  | .pu _ => true
  | .pd _ => true
  | _ => false

/-! ## Requests (R337, R339 to R341) -/

/-- A request during a sequence or the dwell is latched, with event 0x1002 (R339). -/
def latchRequest (t : Target) (s : State) : State :=
  eventG 0x1002 [] (modPower (fun q => { q with latched := some t }) s)

/-- What Standby does with a target (Table PWR-4, R341, R385). -/
def fromStandby (t : Target) (s : State) : State :=
  match t with
  | .standby => s
  | .off => modPower (fun q => { q with phase := .toOff, target := .off }) s
  | .on =>
    if s.power.holdoff then modPower (fun q => { q with refusedOn := if q.refusedOn = 255 then 255 else q.refusedOn + 1 }) s
    else if s.firmware.booted = 0 then s
    else modPower (fun q => { q with phase := .pu 1, target := .on, keepHalted := false, short := false }) s

/-- Start-up step 1 begins (R387, Table MOD-12): module time starts at 0. -/
def beginStart (t : Target) (s : State) : State :=
  modPower (fun q => { q with phase := .startUp, target := t, trimAt := [] }) { s with time := 0 }

/-- A request for a target state (R339). -/
def askPower (t : Target) (s : State) : State :=
  match s.power.phase with
  | .standby => fromStandby t s
  | .ready => if t = .on then s else modPower (fun q => { q with phase := .pd 1, target := t, short := false }) s
  | .off => if t = .off ∨ !s.power.input then s else beginStart t s
  | _ => latchRequest t s

/-- EN_RISE (R337). -/
def execEnRise (s : State) : Host.Outcome State Fault Refusal :=
  .next (askPower .on (modPower (fun q => { q with en := true }) s))

/-- EN_FALL (R337). -/
def execEnFall (s : State) : Host.Outcome State Fault Refusal :=
  .next (askPower .off (modPower (fun q => { q with en := false }) s))

/-- Whether neither firmware copy passed, and only the recovery responder runs (R385): the module stays in Standby. -/
def recovering (s : State) : Bool := s.power.phase == .standby && s.firmware.booted == 0

/-- A request through the PLDM power-state effecter (R337, R382), which the recovery responder does not offer (R385). -/
def pldmPower (t : Target) (s : State) : State := if recovering s then s else askPower t s

/-- PLDM_ON (R337, R382). -/
def execPldmOn (s : State) : Host.Outcome State Fault Refusal := .next (pldmPower .on s)

/-- PLDM_STANDBY (R337, R382). -/
def execPldmStandby (s : State) : Host.Outcome State Fault Refusal := .next (pldmPower .standby s)

/-- PLDM_OFF (R337, R382). -/
def execPldmOff (s : State) : Host.Outcome State Fault Refusal := .next (pldmPower .off s)

/-- At a safe point the latched request becomes the target (R339 step 2). -/
def takeTarget (s : State) : State :=
  modPower (fun q => { q with target := q.latched.getD q.target, latched := none }) s

/-- A request that is still latched where the module comes to rest is acted on. -/
def applyLatched (s : State) : State :=
  match s.power.latched with
  | some t => askPower t (modPower (fun q => { q with latched := none }) s)
  | none => s

/-! ## Entry to Ready and to Standby -/

/-- The power registers that take their reset values at entry to Ready (R369): not PWR_AGE and not PWR_GUARD, which
phase PU2 has just set. -/
def readyClears (off : Nat) : Bool :=
  decide ((0x300C ≤ off ∧ off < 0x302C) ∨ (0x3038 ≤ off ∧ off < 0x3080))

/-- What the housekeeping channels keep at entry to Ready and to Standby: the failed marks, which last until the next
cold start, with their stand-ins (R361, R363). -/
def failedMarks (hk : Tab HkCh) : Tab HkCh :=
  mapTab ({} : HkCh) (fun h => { failed := h.failed, standin := h.failed }) hk

/-- Ready is reached (R338, R359, R361, R369): power registers, cap, housekeeping values, event 0x1001. -/
def enterReady (s : State) : State :=
  let g1 := Tab.drop readyClears s.g
  let cap : W32 := BitVec.ofNat 32 s.img.capInit
  let g2 := Tab.set 0 0x300C cap (Tab.set 0 0x301C 0x01F40A01 (Tab.set 0 0x3020 0x2840 (Tab.set 0 0x3024 0x02BC02BC g1)))
  let s2 := { s with g := g2, hkRound := 0, hk := failedMarks s.hk, mtb := { s.mtb with created := true } }
  let s3 := modPower (fun q => { q with phase := .ready, keepHalted := false, short := false, band := [], inHist := [],
                                        beyond := [], railEvent := [], railRise := [], railOver := [], active := false }) s2
  applyLatched (eventG 0x1001 [2] (takeCapInit s3))

/-- Standby is reached (R338, R341, R391): PCIe is not trained there; 5 s of hold-off start after a trip. -/
def enterStandby (s : State) : State :=
  let s1 := modPower (fun q => { q with phase := .standby, keepHalted := false, short := false,
                                        holdUntil := if q.holdoff then BitVec.ofNat 64 (now s + 5000000000) else 0 }) s
  let s2 := { s1 with pcie := { s1.pcie with speed := 0, width := 0, warm := false }, hostReads := [], hostWait := [],
                      hk := failedMarks s1.hk, merge := [], bar2Wait := [], heldWrites := [] }
  eventG 0x1001 [1] s2

/-- The safe point Standby: the target, or the latched request, is acted on. -/
def restStandby (s : State) : State :=
  let s1 := takeTarget s
  fromStandby s1.power.target s1

/-! ## PU1: the cold start (Table MOD-11) -/

/-- Every register takes its reset value but those of flowstone, of the standby domain and module time. A module
change whose commit is under way stays under way (R55). -/
def coldStart (s : State) : State :=
  let g := Tab.set 0 0x4018 (gget 0x4018 s &&& 8#32) (Tab.set 0 0x600 (gget 0x600 s) coldRegs)
  let s1 : State :=
    { State.reset with
      time := s.time, mtb := { lastMsg := s.time }, g := g, flow := s.flow, wear := s.wear, flowBusy := s.flowBusy,
      flowQueue := s.flowQueue, commit := s.commit, slots := s.slots,
      apv := if s.apv.state = .committing then s.apv else {}, spdm := s.spdm,
      firmware := { s.firmware with ucode := s.firmware.ucodeNext }, pcie := { perst := s.pcie.perst },
      power := { s.power with pending := none, capFromGrant := false, cold := true, guard := [], band := [], beyond := [],
                              railEvent := [], railRise := [], railOver := [], inHist := [] },
      jtag := s.jtag, draws := s.draws, free := s.free, out := s.out, pending := s.pending }
  newLinkId s1

/-- PU1 (R338, Table PWR-4): rails up; safe point U1. -/
def execPu1 (s : State) : Host.Outcome State Fault Refusal :=
  if s.power.phase = .pu 1 then
    let s1 := takeTarget (coldStart s)
    .next (setPhase (if s1.power.target = .on then .pu 2 else .pd 4) s1)
  else .next s

/-! ## PU2: ageing monitors (R352 to R355) -/

/-- First word of a die's trim table (R354). -/
def trimBase (d : Nat) : Nat := 64 + 64 * d

/-- The CHECK of a die's trim table for its word 0 (Table PWR-6). -/
def trimCheck (s : State) (d : Nat) (w0 : W32) : Nat :=
  (crc32c (natLe 2 w0.toNat ++ (List.range 63).flatMap (fun i => natLe 4 (flowAt s (trimBase d + 1 + i)).toNat))).toNat % 65536

/-- Whether a die's trim table passes its CHECK. -/
def trimOk (s : State) (d : Nat) : Bool :=
  let w := flowAt s (trimBase d)
  fld w 31 16 == trimCheck s d w

/-- The stored guard of a die in mV. -/
def storedGuard (s : State) (d : Nat) : Nat := fld (flowAt s (trimBase d)) 7 0

/-- BASE of island `j` of a die in ps. -/
def islandBase (s : State) (d j : Nat) : Nat :=
  fld (flowAt s (trimBase d + 24 + j / 4)) (8 * (j % 4) + 7) (8 * (j % 4))

/-- The guard of an island from its BASE and margin M (R353 step 2). -/
def islandGuard (base m : Nat) : Nat := min 60 (10 + 2 * (base - m))

/-- The margins of the 47 islands of a die, in R355 numbering. -/
def marginOf (margins : List W8) (d j : Nat) : Nat := (margins.getD (47 * d + j) 0).toNat

/-- G_d of a die (R353 step 3, R354). -/
def dieGuard (s : State) (margins : List W8) (d : Nat) : Nat :=
  if trimOk s d then
    (List.range 47).foldl (fun a j => max a (islandGuard (islandBase s d j) (marginOf margins d j))) (storedGuard s d)
  else 60

/-- Whether 24 h of module time allow a trim write (R354). -/
def trimAllowed (s : State) (d : Nat) : Bool :=
  match Tab.get none d s.power.trimAt with
  | none => true
  | some t => decide (t.toNat + 86400000000000 ≤ now s)

/-- Writes a die's stored guard where it has grown, or raises the event of a failed CHECK (R354). -/
def writeTrim (d guard : Nat) (s : State) : State :=
  if !trimOk s d then eventG 0x1008 [2] s
  else if guard ≤ storedGuard s d ∨ !trimAllowed s d then s
  else
    let b := trimBase d
    let w36 : W32 := setFld (flowAt s (b + 36)) 15 0 (fld (flowAt s (b + 36)) 15 0 + 1)
    let t := withWords [(b + 36, w36)] s
    let w0 : W32 := BitVec.ofNat 32 (guard % 256)
    let w : W32 := setFld w0 31 16 (trimCheck t d w0)
    eventG 0x1008 [1] (flowEnqueue [(b + 36, w36), (b, w)]
      (modPower (fun q => { q with trimAt := Tab.set none d (some s.time) q.trimAt }) s))

/-- Reads the monitors of a die (R353). -/
def readMonitors (margins : List W8) (d : Nat) (s : State) : State :=
  let gd := dieGuard s margins d
  let s1 := (List.range 47).foldl (fun t j =>
    let m := marginOf margins d j
    let b := islandBase s d j
    gset (0x3200 + 4 * (47 * d + j)) (BitVec.ofNat 32 (m + 256 * b + 65536 * islandGuard b m)) t) s
  writeTrim d gd (gmod 0x302C (fun w => setFld w (8 * d + 7) (8 * d) gd)
    (modPower (fun q => { q with guard := Tab.set 0 d gd q.guard }) s1))

/-- The V/F voltage of a frequency code on a die in mV: its trim table, or the ROM table (R354). -/
def tableVoltage (s : State) (d code : Nat) : Nat :=
  if trimOk s d then fld (flowAt s (trimBase d + 1 + code / 2)) (16 * (code % 2) + 15) (16 * (code % 2))
  else Config.romVoltage code

/-- The highest code that a cluster runs or is changing to (R350): a deferred change has not started (R351). -/
def codeOf (k : Cluster) : Nat := if k.change = .running then max k.fcode k.tcode else k.fcode

/-- The highest code of a die's clusters (R350). -/
def highestCode (s : State) (d : Nat) : Nat :=
  (List.range 32).foldl (fun a i => max a (codeOf (clusterOf s (32 * d + i)))) 0

/-- The setpoint of VDD_C of a die in mV (R352, Table PWR-5). -/
def vddC (s : State) (d : Nat) : Nat := max 600 (min 900 (tableVoltage s d (highestCode s d) + Tab.get 0 d s.power.guard))

/-- The setpoint of VDD_B of a die in mV (R352, Table PWR-5). -/
def vddB (s : State) (d : Nat) : Nat := 750 + Tab.get 0 d s.power.guard

/-- PU2 (R338, R353): island clocks start at 0.40 GHz, monitors are read; safe point U2. -/
def execPu2 (margins : List W8) (s : State) : Host.Outcome State Fault Refusal :=
  if s.power.phase = .pu 2 then
    let s1 := takeTarget (readMonitors margins 1 (readMonitors margins 0 { s with clusters := [], islandF := [] }))
    .next (setPhase (if s1.power.target = .on then .pu 3 else .pd 4) s1)
  else .next s

/-! ## PU3 and PU4: self-tests and link training (R321, R326, R327, R302) -/

/-- Whether a core makes its cluster unusable (R327): its shaft's map fails its CHECK at step 5, its shaft is BAD, or its
slice checker fails. -/
def shaftBad (before after : State) (test : SelfTest) (core : Nat) : Bool :=
  !mapOk before core || bit (flowAt after (mapBase core)) 8 || test.slices.any (fun c => c.val == core)

/-- The mask of unusable clusters (R327). -/
def unusableMask (before after : State) (test : SelfTest) : Nat :=
  (List.range 64).foldl (fun a cl => if (coresOf cl).any (shaftBad before after test) then a + 2 ^ cl else a) 0

/-- ECC_CHKTEST (R321). -/
def chkTestWord (test : SelfTest) : Nat :=
  (match test.slices with | [] => 0 | c :: _ => 1 + c.val * 4) +
  (match test.channels with | [] => 0 | c :: _ => 2 + c.val * 4096)

/-- The self-tests of start-up step 6. Map entries count for this start whether or not flowstone takes them; event 0x0F07
names each shaft whose map changed (R326). -/
def selfTest (test : SelfTest) (s : State) : State :=
  let r := mapNote test.bonds s
  let shafts := (r.1.map (fun e => (e.1 - 1024) / 15)).eraseDups
  let s1 := gset 0x2004 (BitVec.ofNat 32 (chkTestWord test)) (gsetPair 0x2008 (unusableMask s r.2 test) s)
  let s2 := forAll shafts (fun c t => eventG 0xF07 [c] t) (if r.1 = [] then s1 else flowEnqueue r.1 s1)
  match test.channels with
  | [] => s2
  | _ :: _ => fatalFault 0xF08 [] s2

/-- Link training starts: the ports of the loaded image, or every port while none is loaded (log entry 56). -/
def startLinks (s : State) : State :=
  trainPorts (if bit (gget 0x200 s) 0 then s.img.portEn else 0xFFFFFF) s

/-- PU3 (R338); safe point U3. -/
def execPu3 (test : SelfTest) (s : State) : Host.Outcome State Fault Refusal :=
  if s.power.phase = .pu 3 then
    let s1 := takeTarget (selfTest test s)
    .next (if s1.power.target = .on then startLinks (setPhase (.pu 4) s1) else setPhase (.pd 4) s1)
  else .next s

/-- From U4 or U5 toward Standby or Off: PD2, then PD4 (Table PWR-4). -/
def turnBack (s : State) : State := modPower (fun q => { q with phase := .pd 2, short := true }) s

/-- PU4 (R338): training has ended on every port; safe point U4. On the way back from D2, Ready follows. -/
def execPu4 (s : State) : Host.Outcome State Fault Refusal :=
  if s.power.phase = .pu 4 ∧ (List.range 24).all (fun p => !isTraining (portOf s p) s) then
    let s1 := takeTarget s
    .next (if s1.power.target ≠ .on then turnBack s1
      else if s1.power.keepHalted then enterReady s1
      else setPhase (.pu 5) s1)
  else .next s

/-! ## PU5 and PU6 -/

/-- Ports follow the newly loaded image (R301, R331): the others go to DISABLED, those not yet enabled train. -/
def followPorts (s : State) : State :=
  let s1 := forAll ((List.range 24).filter (fun p => !bit s.img.portEn p)) disablePort s
  trainPorts (BitVec.ofNat 32 (((List.range 24).filter (fun p =>
    bit s.img.portEn p && (portOf s p).st == .disabled)).map (2 ^ ·)).sum) s1

/-- PU5 (R37, R338); safe point U5. -/
def execPu5 (s : State) : Host.Outcome State Fault Refusal :=
  if s.power.phase = .pu 5 then
    let s1 := takeTarget (followPorts (takeTimePort (loadImage s)))
    .next (if s1.power.target = .on then setPhase (.pu 6) s1 else turnBack s1)
  else .next s

/-- A cold start that has come to its end writes record 0x1102 with cause 0 (R389). -/
def noteColdStart (s : State) : State :=
  if s.power.cold then eventG 0x1102 [fld (gget 0x4018 s) 2 0] (modPower (fun q => { q with cold := false }) s) else s

/-- PU6 (R48, R338): chambers are created, the islands rise to their limits, Ready. -/
def execPu6 (s : State) : Host.Outcome State Fault Refusal :=
  if s.power.phase = .pu 6 then .next (enterReady (noteColdStart (raiseIslands (createAll s)))) else .next s

/-! ## Power-down (Table PWR-3) -/

/-- Event 0x1003 of each chamber that power-down halts. -/
def noteHalts (code : Nat) (s : State) : State :=
  forAll (allCh.filter (fun n => isIdle s n || isRunning s n)) (fun n t => event n code 0 [] t) s

/-- Whether flowstone writes and commit journals are complete (PD1). -/
def flowDone (s : State) : Bool := !s.flowBusy && s.flowQueue == [] && s.commit.isNone

/-- PD1 (R338); safe point D1. -/
def execPd1 (s : State) : Host.Outcome State Fault Refusal :=
  if s.power.phase = .pd 1 ∧ flowDone s then
    let s1 := takeTarget (cbistStop (swpAbortAll (haltEvery 0x1003 (noteHalts 0x1003 s))))
    .next (if s1.power.target = .on then enterReady s1 else setPhase (.pd 2) s1)
  else .next s

/-- PD2 (R338): every port DISABLED; safe point D2. -/
def execPd2 (s : State) : Host.Outcome State Fault Refusal :=
  if s.power.phase = .pd 2 then
    let s1 := takeTarget (disableAll s)
    .next (if s1.power.target = .on then
        startLinks (modPower (fun q => { q with phase := .pu 4, keepHalted := !q.short, short := false }) s1)
      else setPhase (if s1.power.short then .pd 4 else .pd 3) s1)
  else .next s

/-- PD3 (R338): chambers UNDEFINED, islands stopped, gallery refresh stopped; safe point D3. -/
def execPd3 (s : State) : Host.Outcome State Fault Refusal :=
  if s.power.phase = .pd 3 then
    let s1 := takeTarget { undefineAll s with clusters := [], islandF := [], galValid := [], tested := [] }
    .next (setPhase (if s1.power.target = .on then .pu 2 else .pd 4) s1)
  else .next s

/-- PD4 (R338): the rails are down, Standby. -/
def execPd4 (s : State) : Host.Outcome State Fault Refusal :=
  if s.power.phase = .pd 4 then .next (restStandby (enterStandby s)) else .next s

/-! ## Off and start-up -/

/-- What is left of the module without its standby rail: flowstone, flash, fuses, pins, and the trip record (R341). -/
def powerLost (input : Bool) (latched : Option Target) (s : State) : State :=
  { State.reset with
    flow := s.flow, wear := s.wear, slots := s.slots, firmware := { s.firmware with booted := 0 },
    pcie := { perst := s.pcie.perst },
    power := { phase := .offDwell, target := .off, latched := latched, trip := s.power.trip,
               lastTrip := s.power.lastTrip, refusedOn := s.power.refusedOn, en := s.power.en, input := input },
    draws := s.draws, free := s.free, out := s.out, pending := s.pending }

/-- OFF_REACHED (R340): the dwell of 500 ms begins. -/
def execOffReached (s : State) : Host.Outcome State Fault Refusal :=
  if s.power.phase = .toOff then .next (powerLost true s.power.latched s) else .next s

/-- INPUT_LOSS (R337): Off at once; hold-up energy completes the flowstone write under way. -/
def execInputLoss (s : State) : Host.Outcome State Fault Refusal :=
  match s.power.phase with
  | .off => .next (modPower (fun q => { q with input := false }) s)
  | .offDwell => .next (modPower (fun q => { q with input := false }) s)
  | _ => .next (powerLost false none s)

/-- DWELL_END (R340): the latched request is acted on. -/
def execDwellEnd (s : State) : Host.Outcome State Fault Refusal :=
  if s.power.phase = .offDwell then .next (applyLatched (setPhase .off s)) else .next s

/-- START_UP (R387): the input has stood at 47 V for 10 ms. During the dwell, the start waits for its end (R340). -/
def execStartUp (s : State) : Host.Outcome State Fault Refusal :=
  if s.power.input then .next s
  else
    let s1 := modPower (fun q => { q with input := true }) s
    match s.power.phase with
    | .off => .next (beginStart .standby s1)
    | .offDwell => .next (modPower (fun q => { q with latched := some (q.latched.getD .standby) }) s1)
    | _ => .next s1

/-- Version of a firmware copy, 1 A, 2 B. -/
def copyVersion (f : Firmware) (k : Nat) : W16 := if k = 1 then f.verA else f.verB

/-- Security version of a firmware copy. -/
def copySecurity (f : Firmware) (k : Nat) : Nat := if k = 1 then f.secA else f.secB

/-- Whether a copy passes verification and the anti-rollback fuses (R385). -/
def copyOk (f : Firmware) (k : Nat) : Bool :=
  (if k = 1 then f.okA else f.okB) && decide (f.fuses ≤ copySecurity f k)

/-- Boots copy `k`: a higher security version blows fuses; copy B is marked and reported (R385). -/
def bootCopy (k : Nat) (s : State) : State :=
  let f := s.firmware
  let s1 := { s with firmware := { f with booted := k, fuses := max f.fuses (min 64 (copySecurity f k)) } }
  if k = 2 then eventG 0x1106 [] (gsetBit 0x4018 3 s1) else s1

/-- Start-up step 2 (R385): the copy that boots first, else the other, else only the recovery responder. -/
def bootFirmware (s : State) : State :=
  let a := s.firmware.newest
  let b := 3 - a
  if copyOk s.firmware a then bootCopy a s
  else if copyOk s.firmware b then bootCopy b s
  else { s with firmware := { s.firmware with booted := 0 } }

/-- STANDBY_REACHED (R385, R391): steps 2 and 3 end; a high EN counts as an ON request. -/
def execStandbyReached (s : State) : Host.Outcome State Fault Refusal :=
  if s.power.phase = .startUp then
    let s1 := restStandby (enterStandby (replayJournal (bootFirmware s)))
    .next (if s1.power.en ∧ s1.power.phase ≠ .pu 1 then askPower .on s1 else s1)
  else .next s

/-! ## Trips (R341) -/

/-- A trip: module-fatal fault, latched request cleared, power-down from PD2 to Standby, frequency changes end
(R341, R351). -/
def trip (code : Nat) (s : State) : State :=
  let s1 := fatalFault code [] s
  let s3 := { s1 with clusters := mapTab ({} : Cluster) (fun c => { c with change := .none, tcode := c.fcode }) s1.clusters }
  let next := match s.power.phase with
    | .pu _ => Phase.pd 2
    | .ready => .pd 2
    | .pd 1 => .pd 2
    | p => p
  modPower (fun q => { q with
    phase := next, target := if next = .toOff then q.target else .standby, latched := none, short := false, trip := true,
    lastTrip := BitVec.ofNat 16 code, holdoff := true,
    holdUntil := if next = .standby then BitVec.ofNat 64 (now s + 5000000000) else BitVec.allOnes 64 }) s3

/-- Whether the power manager runs: not in Off and not before Standby. -/
def managerUp (s : State) : Bool :=
  match s.power.phase with
  | .off => false
  | .offDwell => false
  | .startUp => false
  | _ => true

/-- The rails that the damper does not govern (Table PWR-5). -/
def rails : List Rail := [.vddB, .vddS, .vddP, .vdd1, .vdd2h, .vdd2l, .vddq]

/-- Where a rail's excess is kept. -/
def railKey (d : Nat) (r : Rail) : Nat := 8 * d + rails.idxOf r

/-- The current limit of a rail in A (Table PWR-5). -/
def railLimit : Rail → Nat
  | .vddB => 100
  | .vddS => 60
  | .vddP => 20
  | .vdd1 => 5
  | .vdd2h => 30
  | .vdd2l => 20
  | .vddq => 20

/-- Whether a cause of a power trip is there: a rail trips when its mean has stood above the limit for 100 µs (Table
PWR-5, Table PWR-12); the other causes are the event's own. -/
def tripDue (s : State) (cause : TripCause) : Bool :=
  match cause with
  | .rail d r =>
    (match Tab.get none (railKey d.val r) s.power.railOver with
     | some t => decide (t.toNat + 100000 ≤ now s)
     | none => false)
  | .input => true
  | .regulator => true
  | .excess => true

/-- POWER_TRIP (R341, R342, Table PWR-12). -/
def execPowerTrip (cause : TripCause) (s : State) : Host.Outcome State Fault Refusal :=
  if managerUp s && tripDue s cause then .next (trip 0x100B s) else .next s

/-- ROT_LOST (R341, Table PWR-12). -/
def execRotLost (s : State) : Host.Outcome State Fault Refusal :=
  if managerUp s then .next (trip 0x100C s) else .next s

/-- TRIP_HOLDOFF_END (R341). -/
def execTripHoldoffEnd (s : State) : Host.Outcome State Fault Refusal :=
  if s.power.holdoff ∧ s.power.phase = .standby ∧ s.power.holdUntil.toNat ≤ now s then
    .next (modPower (fun q => { q with holdoff := false, holdUntil := 0 }) s)
  else .next s

end Sys2Proof.Machine
end

