-- ==== Sys2Proof/Machine/Damper.lean ====
section
/-! DEFINITION. Damper.lean: the damper level and its terms (R345 to R347), current limits (R343), frequency
steps and changes (R348, R350, R351), droop (R349) and the energy of each window (R360). Powers are in mW,
currents in mA, energies in µJ (log entry 59). -/
namespace Sys2Proof.Machine
open Sys2Proof

/-! ## The level (R345) -/

/-- DMP_CFG.MAX in force: 1 to 64. -/
def dmpMax (s : State) : Nat :=
  let m := fld (gget 0x3020 s) 6 0
  if 1 ≤ m ∧ m ≤ 64 then m else 64

/-- Whether a cluster's island runs: that of an excluded or unusable cluster only during its test (R331). -/
def islandRuns (s : State) (cl : Nat) : Bool :=
  islandsOn s && (!isolated s cl || (cbistState s == 1 && cbistCluster s == cl))

/-- The damper level of a cluster. -/
def levelOf (s : State) (k : Cluster) : Nat :=
  if k.droop then 0 else min (dmpMax s) (min k.budget (min k.current k.thermal))

/-- Whether a cluster's cores may issue a matrix-engine step in core cycle `n` of the island (R345). -/
def stepAllowed (level n : Nat) : Bool := decide (n % 64 * level / 64 < (n % 64 + 1) * level / 64)

/-- Notes since when a cluster stands at level 1 through its budget or thermal term, and at MAX (R348). -/
def noteLevel (s : State) (k : Cluster) : Cluster :=
  let l := levelOf s k
  { k with
    lowSince := if l = 1 ∧ (k.budget = 1 ∨ k.thermal = 1) then some (k.lowSince.getD s.time) else none,
    maxSince := if l = dmpMax s then some (k.maxSince.getD s.time) else none }

/-- Changes a cluster's island and notes its level. -/
def retune (c : Nat) (f : Cluster → Cluster) (s : State) : State := modCluster c (fun k => noteLevel s (f k)) s

/-- The clusters of a die. -/
def clustersOf (d : Nat) : List Nat := (List.range 32).map (fun i => 32 * d + i)

/-! ## Current limits (R343) -/

/-- The VDD_C limit of a die in A (Table PWR-11). -/
def ilim (s : State) (d : Nat) : Nat :=
  let v := fld (gget 0x3024 s) (16 * d + 9) (16 * d)
  if 100 ≤ v ∧ v ≤ 700 then v else 700

/-- The cut of the current term: three quarters of the present level, at least 1. -/
def cutCurrent (s : State) (k : Cluster) : Cluster := { k with current := max 1 (levelOf s k * 3 / 4) }

/-- Event 0x1007 of an episode, at most once per 1 ms per die. -/
def currentEvent (d : Nat) (s : State) : State :=
  let due := match Tab.get none d s.power.railEvent with
    | none => true
    | some t => decide (t.toNat + 1000000 ≤ now s)
  if due then
    eventG 0x1007 [] (modPower (fun q => { q with railEvent := Tab.set none d (some s.time) q.railEvent }) s)
  else s

/-- A window over the limit. -/
def overWindow (d : Nat) (s : State) : State :=
  let s1 := if Tab.get false d s.power.beyond then s else currentEvent d s
  let s2 := modPower (fun q => { q with beyond := Tab.set false d true q.beyond, railRise := Tab.set 0 d s.time q.railRise }) s1
  forAll (clustersOf d) (fun c t => retune c (cutCurrent t) t) s2

/-- A window below 95 % of the limit: the term rises by 1 every 10 µs; the episode has ended. -/
def underWindow (d : Nat) (s : State) : State :=
  let s1 := modPower (fun q => { q with beyond := Tab.set false d false q.beyond }) s
  if (Tab.get 0 d s.power.railRise).toNat + 10000 ≤ now s then
    forAll (clustersOf d) (retune · (fun k => { k with current := min 64 (k.current + 1) }))
      (modPower (fun q => { q with railRise := Tab.set 0 d s.time q.railRise }) s1)
  else s1

/-- The sum of a window's 8 samples of a rail: 8 times its mean (R342). -/
def windowTotal (f : RailSample → W32) (samples : List RailSample) : Nat := (samples.map (fun x => (f x).toNat)).sum

/-- The current of a rail that the damper does not govern. -/
def railCurrent (r : Rail) (x : RailSample) : W32 :=
  match r with
  | .vddB => x.vddB
  | .vddS => x.vddS
  | .vddP => x.vddP
  | .vdd1 => x.vdd1
  | .vdd2h => x.vdd2h
  | .vdd2l => x.vdd2l
  | .vddq => x.vddq

/-- Notes since when the mean of each such rail of a die stands above its limit (Table PWR-5): the window covers the
2 µs that end now. -/
def noteRails (d : Nat) (samples : List RailSample) (s : State) : State :=
  modPower (fun q => { q with railOver := rails.foldl (fun t r =>
    let k := railKey d r
    Tab.set none k
      (if 8000 * railLimit r < windowTotal (railCurrent r) samples
        then some ((Tab.get none k t).getD (BitVec.ofNat 64 (now s - 2000))) else none) t) q.railOver }) s

/-- CURRENT_WINDOW (R342, R343). -/
def execCurrentWindow (die : Fin 2) (samples : List RailSample) (s : State) : Host.Outcome State Fault Refusal :=
  let d := die.val
  let lim := 8000 * ilim s d
  let c := windowTotal (·.vddC) samples
  let g := windowTotal (·.vddG) samples
  if !islandsOn s then .next s
  else
    let s1 := noteRails d samples s
    if lim < c ∨ 8 * 60000 < g then .next (overWindow d s1)
    else if 20 * c < 19 * lim ∧ 20 * g < 19 * (8 * 60000) then .next (underWindow d s1)
    else .next (modPower (fun q => { q with railRise := Tab.set 0 d s.time q.railRise }) s1)

/-! ## Budgets (R346, R347) -/

/-- An alcove with a share of the budget: chamber, clusters, weight. -/
structure Share where
  ch : Nat
  clusters : List Nat
  weight : Nat
  deriving DecidableEq, Repr

/-- The least common multiple of 1 to 64: makes the weights of R346 whole numbers. -/
def weightUnit : Nat := 1182266884102822267511361600

/-- The slack of an alcove in units of 1/65,536, limited to one half; 0 without SHIFT or for an alcove that is no
tracked stage (R346, R357). -/
def alcoveSlack (s : State) (c : Chamber) (k : Nat) : Nat :=
  if s.img.shift && bit (cget (0xC40 + 0x20 * k) c) 12 then min 32768 (Tab.get 0 k c.slack) else 0

/-- The shares of a chamber's alcoves: PWR_SHARE × clusters / clusters of the chamber × (1 − slack). -/
def sharesOf (s : State) (n : Nat) : List Share :=
  let c := chOf s n
  let all := (bits64 c.clusters).length
  (List.range c.alcoves).map (fun k =>
    let cl := bits64 (alcoveMask c k)
    ⟨n, cl, c.pwrShare * cl.length * (weightUnit / all) * (65536 - alcoveSlack s c k)⟩)

/-- The shares of the RUNNING chambers. -/
def allShares (s : State) : List Share := (allCh.filter (isRunning s)).flatMap (sharesOf s)

/-- The budget term of a cluster from its power and its alcove's budget b·w / (total · size) (R347). -/
def budgetTerm (b total w size power old : Nat) : Nat :=
  let p := power * total * size
  if 11 * b * w < 10 * p then max 1 (old - 4)
  else if b * w < p then max 1 (old - 1)
  else if 20 * p < 19 * (b * w) then min 64 (old + 1)
  else old

/-- B of R346 in mW: cap − P_shared − 2 % of the cap. -/
def budgetOf (s : State) (shared : Nat) : Nat := 980 * capOf s - shared

/-- The present budget of a chamber in W. -/
def chamberBudget (b total : Nat) (shares : List Share) (n : Nat) : Nat :=
  if total = 0 then 0 else (shares.filter (fun a => a.ch == n)).foldl (fun t a => t + b * a.weight) 0 / total / 1000

/-- Adjusts the clusters of one alcove. -/
def adjustShare (b total : Nat) (power : List Nat) (a : Share) (s : State) : State :=
  forAll a.clusters (fun c => retune c (fun k =>
    { k with budget := budgetTerm b total a.weight a.clusters.length (power.getD c 0) k.budget })) s

/-- BUDGET_PERIOD (R346, R347): every 10 µs. -/
def execBudgetPeriod (shared : W32) (power : List Nat) (s : State) : Host.Outcome State Fault Refusal :=
  if !isReady s then .next s
  else
    let shares := allShares s
    let total := (shares.map (·.weight)).sum
    let b := budgetOf s shared.toNat
    let s1 := gset 0x3014 (setFld (setFld 0 10 0 (b / 1000)) 26 16 (shared.toNat / 1000)) s
    let s2 := forAll (allCh.filter (defined s)) (fun n =>
      modCh n (cmod 0x1108 (fun w => setFld w 15 0 (chamberBudget b total shares n)))) s1
    .next (forAll shares (adjustShare b total power) s2)

/-! ## Frequency (R348, R350, R351) -/

/-- A requested change: deferred while the detector is asserted, or in the 10 µs after; a later request replaces
a deferred one; otherwise it starts. -/
def askChange (target : Nat) (k : Cluster) : Cluster :=
  let next := match k.change with
    | .deferred t => Change.deferred t
    | _ => if k.droop then .deferred none else .running
  { k with tcode := target, change := next }

/-- Whether a time has stood for `ns`. -/
def heldFor (s : State) (since : Option W64) (ns : Nat) : Bool :=
  match since with
  | some t => decide (t.toNat + ns ≤ now s)
  | none => false

/-- One step of a cluster's frequency (R348). -/
def stepFrequency (s : State) (k : Cluster) : Cluster :=
  if k.change = .running then k
  else if heldFor s k.lowSince 100000 && decide (0 < k.fcode) then
    askChange (k.fcode - 1) { k with lowSince := some s.time }
  else if heldFor s k.maxSince 1000000 && decide (k.fcode < k.limit) then
    askChange (k.fcode + 1) { k with maxSince := some s.time }
  else k

/-- FREQUENCY_STEP (R348). -/
def execFrequencyStep (cluster : BitVec 6) (s : State) : Host.Outcome State Fault Refusal :=
  if isReady s && islandRuns s cluster.toNat then .next (modCluster cluster.toNat (fun k => stepFrequency s (noteLevel s k)) s) else .next s

/-- FREQUENCY_CHANGE_COMPLETE (R350). -/
def execFrequencyChangeComplete (cluster : BitVec 6) (s : State) : Host.Outcome State Fault Refusal :=
  if (clusterOf s cluster.toNat).change = .running then
    .next (modCluster cluster.toNat (fun k => { k with fcode := k.tcode, change := .none }) s)
  else .next s

/-- DEFERRED_CHANGE_START (R351): 10 µs after the release. -/
def execDeferredChangeStart (cluster : BitVec 6) (s : State) : Host.Outcome State Fault Refusal :=
  let k := clusterOf s cluster.toNat
  match k.change with
  | .deferred (some t) =>
    if !k.droop ∧ t.toNat ≤ now s then .next (setCluster cluster.toNat { k with change := .running } s) else .next s
  | _ => .next s

/-! ## Droop (R349) -/

/-- DROOP_ASSERT (R349, R351): level 0, the assertion counts, a deferred change waits for the new release. -/
def execDroopAssert (cluster : BitVec 6) (s : State) : Host.Outcome State Fault Refusal :=
  let c := cluster.toNat
  let k := clusterOf s c
  if k.droop ∨ !islandRuns s c then .next s
  else
    let change := match k.change with
      | .deferred _ => Change.deferred none
      | x => x
    .next (bump c 13 1 (gaddPair 0x3048 1 (setCluster c (noteLevel s { k with droop := true, change := change }) s)))

/-- DROOP_RELEASE (R349, R351). -/
def execDroopRelease (cluster : BitVec 6) (s : State) : Host.Outcome State Fault Refusal :=
  let c := cluster.toNat
  let k := clusterOf s c
  if k.droop then
    let change := match k.change with
      | .deferred _ => Change.deferred (some (BitVec.ofNat 64 (now s + 10000)))
      | x => x
    .next (setCluster c (noteLevel s { k with droop := false, change := change }) s)
  else .next s

/-! ## Energy (R360) -/

/-- The energy of a chamber's own clusters in a window. -/
def ownEnergy (c : Chamber) (cluster : List Nat) : Nat := ((bits64 c.clusters).map (fun i => cluster.getD i 0)).sum

/-- Shares of a whole in proportion to weights, by cumulative rounding, so that they add up to the whole (R360). -/
def splitShares (total whole : Nat) : List Nat → Nat → List Nat
  | [], _ => []
  | w :: l, before => (whole * (before + w) / total - whole * before / total) :: splitShares total whole l (before + w)

/-- Credits a chamber with energy: PWR_ENERGY, its bank, and the mean power over the last 1 ms. -/
def creditChamber (n e : Nat) (s : State) : State :=
  let c := caddPair 0x1100 e (chOf s n)
  let hist := (e :: c.eHist).take 10
  bumpCh n 12 e (setCh n (cmod 0x1108 (fun w => setFld w 31 16 (hist.sum / 1000)) { c with eHist := hist }) s)

/-- ENERGY_WINDOW (R360): the energies of 100 µs, and the largest 10 µs mean of input power in the last 1 ms, in W. -/
def execEnergyWindow (input peak : Nat) (cluster : List Nat) (s : State) : Host.Outcome State Fault Refusal :=
  if !isReady s then .next s
  else
    let chs := allCh.filter (defined s)
    let running := chs.filter (isRunning s)
    let own := fun n => ownEnergy (chOf s n) cluster
    let rest := input - (chs.map own).sum
    let byEnergy := running.map own
    let weights := if byEnergy.sum = 0 then running.map (fun n => (bits64 (chOf s n).clusters).length) else byEnergy
    let shares := splitShares weights.sum rest weights 0
    let hist := (input :: s.power.inHist).take 10
    let s1 := gset 0x3010 (setFld (setFld 0 10 0 (hist.sum / 1000)) 26 16 peak)
      (gaddPair 0x3040 input (modPower (fun q => { q with inHist := hist }) { s with coord := { s.coord with lastIn := input } }))
    let s2 := forAll (List.range 64) (fun c => bump c 15 (cluster.getD c 0)) s1
    let s3 := if running = [] then gaddPair 0x3038 rest s2 else s2
    .next (forAll chs (fun n => creditChamber n (own n + (shares.getD (running.idxOf n) 0))) s3)

end Sys2Proof.Machine
end

