-- ==== Sys2Proof/Machine/Coordinate.lean ====
section
/-! DEFINITION. Coordinate.lean: the budget across modules (R300, R356 to R359). -/
namespace Sys2Proof.Machine
open Sys2Proof

/-- Whether this module is its own coordinator (R358). -/
def isCoord (s : State) : Bool := s.img.coord == some s.img.moduleId

/-! ## Slack (R356, R357) -/

/-- Slack of a stage from the growth of PIP_STALL over a window, in units of 1/65,536 (R356). -/
def slackOf (growth : Nat) : Nat := min 65535 (growth * 65536 / 100000)

/-- The tracked stages of a RUNNING chamber: those with PIP_STAGE.EN = 1 (R356, Table PIP-4). -/
def stagesOf (s : State) (n : Nat) : List Nat :=
  if isRunning s n then (List.range 8).filter (fun k => bit (creg s n (0xC40 + 0x20 * k)) 12) else []

/-- The slack of the window that ends now, and the stall time from which the next one grows. -/
def takeSlack (n : Nat) (s : State) : State :=
  let stages := stagesOf s n
  modCh n (fun c =>
    let stall := fun k => cpair (0xC48 + 0x20 * k) c
    { c with
      slack := stages.foldl (fun t k => Tab.set 0 k (slackOf (stall k - (Tab.get 0 k c.stallSeen).toNat)) t) [],
      stallSeen := (List.range 8).foldl (fun t k => Tab.set 0 k (BitVec.ofNat 64 (stall k)) t) [] }) s

/-- The entries of a SLACK packet: the first 8 tracked stages in ascending (chamber, alcove). -/
def slackEntries (s : State) : List (Nat × Nat × Nat) :=
  (allCh.flatMap (fun n => (stagesOf s n).map (fun k => (n, k, Tab.get 0 k (chOf s n).slack)))).take 8

/-- The body of a SLACK packet (Table LNK-8). -/
def slackBody (s : State) (number : W32) : Bytes :=
  slice (natLe 8 (now s / 100000 * 100000) ++ natLe 2 (s.coord.lastIn / 100) ++ natLe 2 (capOf s) ++ natLe 4 number.toNat ++
    (slackEntries s).flatMap (fun e => natLe 4 (e.1 + e.2.1 * 32 + e.2.2 * 65536))) 0 56

/-- The smallest slack of entries; 0 where there are none (R358 step 1). -/
def leastSlack : List Nat → Nat
  | [] => 0
  | [a] => a
  | a :: l => min a (leastSlack l)

/-- Keeps a module's report. -/
def putReport (m slack : Nat) (s : State) : State :=
  { s with coord := { s.coord with reports := Tab.set none m (some ⟨s.time, slack⟩) s.coord.reports } }

/-- SLACK_SEND (R356): once for each multiple of 100 µs. -/
def execSlackSend (s : State) : Host.Outcome State Fault Refusal :=
  if s.coord.lastSlack.toNat / 100000 < now s / 100000 then
    let s1 := forAll allCh takeSlack { s with coord := { s.coord with lastSlack := s.time } }
    match s.img.coord with
    | none => .next s1
    | some m =>
      if isCoord s then .next (putReport m (leastSlack ((slackEntries s1).map (fun e => e.2.2))) s1)
      else
        let number := s1.coord.slackNo + 1
        let s2 := { s1 with coord := { s1.coord with slackNo := number } }
        .next (inject { ptype := 0x18, hops := 0, dstMod := m, dstCh := 0, srcMod := s.img.moduleId, srcCh := 0,
                        body := slackBody s2 number } s2)
  else .next s

/-- The slack entries of a packet body. Entries ascend by (chamber, alcove), so only the first can be a used entry
of zeros (R356). -/
def bodySlack (body : Bytes) : Nat :=
  let words := (List.range 8).map (fun i => at_ body (16 + 4 * i) 4)
  if words.headD 0 = 0 then 0 else leastSlack ((words.filter (· ≠ 0)).map (· / 65536))

/-- A SLACK or GRANT packet dropped (R300). -/
def dropPower (s : State) : State := eventG 0xE07 [] (gcount 0x100C 1 s)

/-- SLACK (R300, R358). -/
def execSlack (s : State) : Host.Outcome State Fault Refusal :=
  match takeArrived 0x18 s with
  | none => .next s
  | some (p, s1) => if isCoord s1 then .next (putReport p.srcMod (bodySlack p.body) s1) else .next (dropPower s1)

/-! ## Grants (R359) -/

/-- A cap takes effect. -/
def applyCap (w : Nat) (s : State) : State :=
  putCap w (modPower (fun q => { q with pending := none, capFromGrant := true }) s)

/-- A GRANT from the coordinator: accepted if its GRANT_SEQ is newer; it replaces one not yet applied. -/
def acceptGrant (seq : W32) (cap applyAt : Nat) (s : State) : State :=
  let d := (seq - gget 0x1014 s).toNat
  if 1 ≤ d ∧ d < 2 ^ 31 then
    let s1 := gset 0x1014 seq s
    if applyAt ≤ now s then applyCap cap s1
    else modPower (fun q => { q with pending := some (cap, BitVec.ofNat 64 applyAt) }) s1
  else s

/-- GRANT (R300, R359). -/
def execGrant (s : State) : Host.Outcome State Fault Refusal :=
  match takeArrived 0x19 s with
  | none => .next s
  | some (p, s1) =>
    if s1.img.coord = some p.srcMod then
      .next (acceptGrant (BitVec.ofNat 32 (at_ p.body 0 4)) (at_ p.body 4 2) (at_ p.body 8 8) s1)
    else .next (dropPower s1)

/-- GRANT_APPLY (R359). -/
def execGrantApply (s : State) : Host.Outcome State Fault Refusal :=
  match s.power.pending with
  | some (cap, t) => if t.toNat ≤ now s then .next (applyCap cap s) else .next s
  | none => .next s

/-! ## The coordinator (R358) -/

/-- The modules that have reported within the last 1 ms, with their weights 1 − min(s_m, 0.5) in 1/65,536. -/
def reporters (s : State) : List (Nat × Nat) :=
  s.coord.reports.filterMap (fun e => match e.2 with
    | some r => if now s ≤ r.time.toNat + 1000000 then some (e.1, 65536 - min 32768 r.slack) else none
    | none => none)

/-- What is left of TOTAL beside the last caps of the modules that have fallen silent (step 2). -/
def totalLeft (s : State) (who : List (Nat × Nat)) : Nat :=
  fld (gget 0x3018 s) 15 0 - ((s.coord.grants.filter (fun e => !who.any (fun w => w.1 == e.1))).map (·.2)).sum

/-- Gives one module its cap (step 4). -/
def giveGrant (t sum : Nat) (e : Nat × Nat) (s : State) : State :=
  let cap := max 500 (min 1400 (t * e.2 / sum))
  let last := Tab.get 0 e.1 s.coord.grants
  let cfg := gget 0x301C s
  if (cap - last) + (last - cap) < fld cfg 15 8 ∨ cap = last then s
  else
    let seq := s.coord.seq + 1
    let at_ := if cap < last then 0 else now s + 1000 * fld cfg 31 16
    let s1 := { s with coord := { s.coord with seq := seq, grants := Tab.set 0 e.1 cap s.coord.grants } }
    if e.1 = s.img.moduleId then acceptGrant seq cap at_ s1
    else inject { ptype := 0x19, hops := 0, dstMod := e.1, dstCh := 0, srcMod := s.img.moduleId, srcCh := 0,
                  body := natLe 4 seq.toNat ++ natLe 2 cap ++ natLe 2 0 ++ natLe 8 at_ ++ natLe 8 0 } s1

/-- COORDINATOR_PERIOD (R358). -/
def execCoordinatorPeriod (s : State) : Host.Outcome State Fault Refusal :=
  if isReady s ∧ isCoord s ∧ s.coord.nextPeriod.toNat ≤ now s then
    let ms := max 1 (fld (gget 0x301C s) 7 0)
    let s1 := { s with coord := { s.coord with nextPeriod := BitVec.ofNat 64 (now s + 1000000 * ms) } }
    if fld (gget 0x3018 s) 15 0 = 0 then .next s1
    else
      let who := reporters s1
      .next (forAll who (giveGrant (totalLeft s1 who) (who.map (·.2)).sum) s1)
  else .next s

end Sys2Proof.Machine
end

