-- ==== Sys2Proof/Machine/Housekeep.lean ====
section
/-! DEFINITION. Housekeep.lean: housekeeping channels, temperature sensors, gallery bands, thermal terms and thermal
trips (R361 to R366). Temperatures are in 1/16 °C (Table PWR-8). -/
namespace Sys2Proof.Machine
open Sys2Proof

/-- Housekeeping channel `n`. -/
def hkOf (s : State) (n : Nat) : HkCh := Tab.get {} n s.hk

/-- Changes a housekeeping channel. -/
def modHk (n : Nat) (f : HkCh → HkCh) (s : State) : State := { s with hk := Tab.set {} n (f (hkOf s n)) s.hk }

/-- A write of HK_TRIG (R362). -/
def writeHkTrig (v : W32) (s : State) : State :=
  let k := fld v 7 0
  if !isReady s ∨ 223 < k then eventG 0x1009 [] s
  else if (hkOf s k).pending then gcount 0x3054 1 s
  else modHk k (fun h => { h with pending := true }) s

/-! ## Sensors (R363) -/

/-- The sensors of one kind on a die: first index, count, columns. Kinds: compute, gallery layer 0, layer 1, base. -/
def gridOf (k : Nat) : Nat × Nat × Nat :=
  if k < 40 then (0, 40, 8) else if k < 48 then (40, 8, 4) else if k < 56 then (48, 8, 4) else (56, 8, 4)

/-- The neighbours of sensor `k` of a die (R363): in its grid, and across the gallery layers. -/
def gridNeighbours (k : Nat) : List Nat :=
  let g := gridOf k
  let i := k - g.1
  let col := i % g.2.2
  let cols := g.2.2
  (if col = 0 then [] else [k - 1]) ++ (if col + 1 < cols then [k + 1] else []) ++
  (if i < cols then [] else [k - cols]) ++ (if i + cols < g.2.1 then [k + cols] else []) ++
  (if 40 ≤ k ∧ k < 48 then [k + 8] else if 48 ≤ k ∧ k < 56 then [k - 8] else [])

/-- Whether a channel gives a reading of its own. -/
def sensorOk (s : State) (n : Nat) : Bool := (hkOf s n).valid && !(hkOf s n).failed

/-- A reading as a signed number. -/
def reading (s : State) (n : Nat) : Int := (hkOf s n).value.toInt

/-- The neighbours of channel `n` that are left. -/
def neighbours (s : State) (n : Nat) : List Nat :=
  ((gridNeighbours (n % 64)).map (fun k => n / 64 * 64 + k)).filter (sensorOk s)

/-- Whether a sensor differs by more than 8 °C from the mean of at least two neighbours. -/
def isOdd (s : State) (n : Nat) : Bool :=
  let l := neighbours s n
  let sum := (l.map (reading s)).sum
  decide (2 ≤ l.length ∧ 128 * l.length < (reading s n * l.length - sum).natAbs)

/-- One sensor at the end of a round: counts odd rounds; at three the sensor is marked failed (event 0x1005). The
comparison uses the marks that stood at the round's end. -/
def judgeSensor (ref : State) (n : Nat) (s : State) : State :=
  if !sensorOk ref n then s
  else if isOdd ref n then
    if 2 ≤ (hkOf s n).odd then eventG 0x1005 [] (modHk n (fun h => { h with failed := true, standin := true, odd := 0 }) s)
    else modHk n (fun h => { h with odd := h.odd + 1 }) s
  else modHk n (fun h => { h with odd := 0 }) s

/-- The largest of a list of readings. -/
def largest : List Int → Option Int
  | [] => none
  | a :: l => match largest l with
    | none => some a
    | some b => some (max a b)

/-- The stand-in of a failed sensor: the largest reading of its neighbours, or of its die and kind. -/
def standIn (s : State) (n : Nat) : State :=
  if (hkOf s n).failed then
    let g := gridOf (n % 64)
    let kind := ((List.range g.2.1).map (fun i => n / 64 * 64 + g.1 + i)).filter (sensorOk s)
    let from_ := if neighbours s n = [] then kind else neighbours s n
    match largest (from_.map (reading s)) with
    | some v => modHk n (fun h => { h with value := BitVec.ofInt 16 v, standin := true }) s
    | none => s
  else s

/-- The temperature sensors of a die. -/
def sensorsOf (d : Nat) : List Nat := (List.range 64).map (fun i => 64 * d + i)

/-- HK_CONVERSION (R361, R362): the value replaces the previous one; a failed sensor shows its stand-in, which follows
the readings of its die (R363). -/
def execHkConversion (n : BitVec 8) (v : W16) (s : State) : Host.Outcome State Fault Refusal :=
  let k := n.toNat
  if isReady s ∧ k < 224 then
    let h := hkOf s k
    let s1 := ifdo h.pending (gsetBit (0x3060 + 4 * (k / 32)) (k % 32)) s
    let s2 := modHk k (fun h => { h with
      value := if h.failed then h.value else v, valid := true, pending := false, round := BitVec.ofNat 8 s.hkRound }) s1
    .next (if k < 128 then forAll (sensorsOf (k / 64)) (fun n t => standIn t n) s2 else s2)
  else .next s

/-! ## Bands, thermal terms, trips (R364 to R366) -/

/-- The readings of some channels, stand-ins included. -/
def readingsOf (s : State) (l : List Nat) : List Int := (l.filter (fun n => (hkOf s n).valid)).map (reading s)

/-- The threshold of a band above 0 in 1/16 °C (Table PWR-9). -/
def bandThreshold (s : State) (b : Nat) : Int := 16 * (([0, 75, 90].getD b (throttle s) : Nat) : Int)

/-- The band that G_s reaches. -/
def bandFor (s : State) (g : Int) : Nat :=
  if bandThreshold s 3 ≤ g then 3 else if bandThreshold s 2 ≤ g then 2 else if bandThreshold s 1 ≤ g then 1 else 0

/-- The next band of a stack (R364). -/
def nextBand (s : State) (old : Nat) (g : Int) : Nat :=
  if old < bandFor s g then bandFor s g
  else if 0 < old ∧ g < bandThreshold s old - 16 * (hyst s : Int) then old - 1
  else old

/-- The gallery band of a stack at the end of a round. -/
def bandRound (d : Nat) (s : State) : State :=
  match largest (readingsOf s ((List.range 16).map (fun i => 64 * d + 40 + i))) with
  | none => s
  | some g =>
    let old := Tab.get 0 d s.power.band
    let new := nextBand s old g
    let s1 := modPower (fun q => { q with band := Tab.set 0 d new q.band }) s
    let s2 := gmod 0x3028 (fun w => setFld (setFld w (2 * d + 1) (2 * d) new) (8 * d + 15) (8 * d + 8)
      (g / 16).toNat) s1
    if new = old then s2 else eventG 0x1006 [d, old, new] s2

/-- Whether the thermal terms of a die fall (R365). -/
def dieHot (s : State) (d : Nat) : Bool :=
  Tab.get 0 d s.power.band == 3 ||
  (readingsOf s ((List.range 40).map (fun i => 64 * d + i))).any (fun v => decide (16 * ((throttle s + 5 : Nat) : Int) ≤ v))

/-- The thermal terms of a die's clusters at the end of a round. -/
def thermalRound (d : Nat) (s : State) : State :=
  let hot := dieHot s d
  forAll (clustersOf d) (retune · (fun k =>
    { k with thermal := if hot then max 1 (k.thermal - 4) else min 64 (k.thermal + 1) })) s

/-- Counts the rounds that a reading has stood at or above TRIP (R366). -/
def heatRound (n : Nat) (s : State) : State :=
  let h := hkOf s n
  let beyond := h.valid && decide (16 * (tripTemp s : Int) ≤ h.value.toInt)
  let k := if beyond then min 2 (h.hot + 1) else 0
  if k = h.hot then s else modHk n (fun h => { h with hot := k }) s

/-- HK_ROUND_END (R363 to R366). -/
def execHkRoundEnd (s : State) : Host.Outcome State Fault Refusal :=
  if !isReady s then .next s
  else
    let temps := List.range 128
    let s1 := forAll temps (judgeSensor s) s
    let s2 := forAll temps (fun n t => standIn t n) s1
    let s3 := forAll [0, 1] thermalRound (forAll [0, 1] bandRound s2)
    let s4 := forAll temps heatRound { s3 with hkRound := s3.hkRound + 1 }
    if temps.any (fun n => decide (2 ≤ (hkOf s4 n).hot)) then .next (trip 0x100A s4) else .next s4

end Sys2Proof.Machine
end

