-- ==== Sys2Proof/Machine/Regs.lean ====
section
/-! DEFINITION. Regs.lean: what every register reads as (R5 to R13, R32, R398, R407). Registers that only show
state held elsewhere are computed here; reads go word by word and leave with a completion. -/
namespace Sys2Proof.Machine
open Sys2Proof

/-! ## Codes -/

/-- STATE of CHM_STAT (Table STR-7). -/
def chStateCode : ChState → Nat
  | .undefined => 0
  | .clearing => 1
  | .idle => 2
  | .running => 3
  | .halted => 4
  | .rotating => 5

/-- STATE of APV_STAT (Table STR-11). -/
def apvStateCode : ApvState → Nat
  | .empty => 0
  | .collecting => 1
  | .proposed => 2
  | .committing => 3

/-- STATE of a port (Table LNK-10). -/
def portStateCode : PortState → Nat
  | .disabled => 0
  | .training => 1
  | .active => 2
  | .recovery => 3
  | .down => 4

/-- STATE of LNT_STAT (Table OBS-7). -/
def lntStateCode : LntState → Nat
  | .idle => 0
  | .armed => 1
  | .latching => 2
  | .done => 3

/-- PENDING of PWR_STAT (Table PWR-11). -/
def targetCode : Option Target → Nat
  | none => 0
  | some .on => 1
  | some .standby => 2
  | some .off => 3

/-- A flag as a bit. -/
def one (b : Bool) : Nat := if b then 1 else 0

/-- A register from a number. -/
def word (n : Nat) : W32 := BitVec.ofNat 32 n

/-- Word `i` of a byte string. -/
def wordAt (bs : Bytes) (off : Nat) : W32 := word (at_ bs off 4)

/-! ## The APV block (Table STR-11) -/

/-- APV_STAT. -/
def apvStat (a : Apv) : Nat :=
  apvStateCode a.state + 8 * one a.ownerIn + 16 * one a.operatorIn + 32 * one a.overflow + 64 * one a.ignored +
  256 * a.buf.length + 65536 * a.result

/-- A register of an APV block. -/
def apvLive (a : Apv) (j : Nat) : W32 :=
  if j = 4 then word (apvStat a)
  else if j = 8 then a.id
  else if 0x10 ≤ j ∧ j < 0x20 then word (a.nonce.toNat >>> (8 * (j - 0x10)))
  else if 0x20 ≤ j ∧ j < 0x50 then wordAt a.hash (j - 0x20)
  else if j = 0x50 then a.deadline.truncate 32
  else if j = 0x54 then (a.deadline >>> 32).truncate 32
  else if 0x200 ≤ j ∧ j < 0x300 then
    let e := a.buf.getD ((j - 0x200) / 8) (0, 0)
    if j % 8 = 0 then e.1 else e.2
  else 0

/-! ## The chamber block -/

/-- A register of operation list `k` (Table OPS-12, R214). -/
def listLive (s : State) (n k j : Nat) : W32 :=
  let l := Tab.get {} k (chOf s n).lists
  if (chOf s n).alcoves ≤ k then 0
  else if j < 0xC then creg s n (0xA00 + 0x20 * k + j)
  else if j = 0xC then word l.tail
  else if j = 0x10 then word l.head
  else if j = 0x14 then word l.fetch
  else if j = 0x18 then word (l.count % 2 ^ 29 + k * 2 ^ 29)
  else 0

/-- OPS_STAT (Table OPS-12). -/
def opsStat (s : State) (n : Nat) : W32 :=
  let c := chOf s n
  setFld (setBit (cget 0x904 c) 14 (c.ops.length == c.opShare)) 12 0 c.ops.length

/-- PIP_BANK_STAT (Table PIP-4). -/
def bankStat (c : Chamber) : W32 :=
  let d := bankDepth c
  word (d + 64 * one (d == 32) + 128 * one (bit (cget 0xC08 c) 7) + 256 * one (c.chains.any (fun e => e.2.isSome)))

/-- Registers of a chamber block that only show state, by offset; `none` for a register that is held. -/
def chmShown (s : State) (n off : Nat) : Option W32 :=
  let c := chOf s n
  match off with
  | 0x0 => some (word (one (c.st == .running)))
  | 0x4 => some (word (chStateCode c.st + 8 * c.cls + 16 * c.alcoves + 256 * one c.ownerSet + fld (cget 4 c) 31 16 * 65536))
  | 0x8 => some (c.clusters.truncate 32)
  | 0xC => some ((c.clusters >>> 32).truncate 32)
  | 0x18 => some (if c.cls = 1 then cget 0x18 c else 0)
  | 0x1C => some (if c.cls = 1 then cget 0x1C c else 0)
  | 0x704 => some (setBit (cget 0x704 c) 0 c.invBusy)
  | 0x710 => some (word (winSize s c / 65536))
  | 0x714 => some (word ((echoSize s c 0 + echoSize s c 1) / 65536))
  | 0x728 => some (word c.rotPtr)
  | 0x72C => some (word (c.rotPtr >>> 32))
  | 0x804 => some (setBit (cget 0x804 c) 2 (c.lines.any (fun l => l.st == .draining)))
  | 0x80C => some (word (c.lines.countP (fun l => l.st != .read)))
  | 0x810 => some (word (c.lines.countP (fun l => l.st == .read)))
  | 0x904 => some (opsStat s n)
  | 0xC08 => some (bankStat c)
  | 0xC0C => some (setBit (cget 0xC0C c) 0 (bit (cget 0xC0C c) 0 && c.ops.any (fun o => opType o == 9 && o.state == .executing)))
  | 0xE04 => some (setBit (cget 0xE04 c) 2 (c.ash != []))
  | 0x1224 => some (setBit (cget 0x1224 c) 0 (ringFull s (some n)))
  | 0x1300 => some (word (one (c.ops.any (fun o => opType o == 0xA && o.state == .executing))))
  | 0x1308 => some (word (c.bulkWt + c.linkWt * 256 + c.bridgeWt * 65536 + c.pwrShare * 2 ^ 24))
  | 0x3FF00 => some (s.time.truncate 32)
  | 0x3FF04 => some ((s.time >>> 32).truncate 32)
  | _ => none

/-- Whether an APV block has a register at an offset (Table STR-11). -/
def apvHas (j : Nat) : Bool :=
  decide (j = 0 ∨ j = 4 ∨ j = 8 ∨ (0x10 ≤ j ∧ j < 0x58) ∨ (0x80 ≤ j ∧ j < 0x140) ∨ (0x200 ≤ j ∧ j < 0x300))

/-- Whether a chamber block has a register at an offset. -/
def chmHas (off : Nat) : Bool :=
  (chmSpec off).isSome || decide ((0xA00 ≤ off ∧ off < 0xB00 ∧ off % 0x20 < 0x1C) ∨
    (0x100 ≤ off ∧ off < 0x400 ∧ apvHas (off - 0x100)) ∨ (0x1400 ≤ off ∧ off < 0x1500) ∨ (0x10000 ≤ off ∧ off < 0x18000))

/-- What a word of a chamber block reads as; an undefined chamber's block is reserved (R13). -/
def chmLive (s : State) (n off : Nat) : W32 :=
  if !defined s n then 0
  else if 0x100 ≤ off ∧ off < 0x400 then apvLive (chOf s n).apv (off - 0x100)
  else if 0xA00 ≤ off ∧ off < 0xB00 then listLive s n ((off - 0xA00) / 0x20) (off % 0x20)
  else if 0x1400 ≤ off ∧ off < 0x1500 then wordAt (shadowBytes (Tab.get {} (156 + n) s.opShadows)) (off - 0x1400)
  else if 0x10000 ≤ off ∧ off < 0x14000 then counterOf (chOf s n) ((off - 0x10000) / 4)
  else
    match chmShown s n off with
    | some w => w
    | none => if (chmSpec off).isSome then creg s n off else 0

/-! ## The global block -/

/-- STR_STAT (Table STR-6). -/
def strStat (s : State) : W32 :=
  setFld (setBit (gget 0x200 s) 2 s.prog.isSome) 21 16 (allCh.filter (defined s)).length

/-- FLW_STAT (Table STR-15). -/
def flwStat (s : State) : W32 :=
  setBit (setBit (gget 0x600 s) 0 s.flowBusy) 2 (s.wear.any (fun e => decide (100000 ≤ e.2)))

/-- FLW_WEAR of the selected word. -/
def flwWear (s : State) : W32 :=
  let i := fld (gget 0x604 s) 13 0
  word (min 100000 (Tab.get 0 i s.wear) + 2 ^ 31 * one (worn s i))

/-- LNK_CFG (Table LNK-11). -/
def lnkCfg (s : State) : W32 :=
  match s.img.coord with
  | some m => word (s.img.moduleId + m * 65536 + 2 ^ 28)
  | none => word s.img.moduleId

/-- A register of port `p` (Table LNK-12). -/
def portLive (s : State) (p j : Nat) : W32 :=
  let q := portOf s p
  if j = 0 then 0
  else if j = 4 then
    word (portStateCode q.st + 8 * one q.enabled + 16 * one (bit (gget (portReg p 4) s) 4) + q.peerModule.toNat * 256 +
      q.peerPort.toNat * 2 ^ 20)
  else if (specAt portRegs j).isSome then gget (portReg p j) s else 0

/-- PWR_STAT (Table PWR-11). -/
def pwrStat (s : State) : W32 :=
  let q := s.power
  word (stateCode s + 8 * one (inSequence s) + 16 * targetCode q.latched + 64 * one q.trip + 128 * one q.capFromGrant +
    256 * q.refusedOn.toNat + 65536 * q.lastTrip.toNat)

/-- DMP_CL of a cluster (Table PWR-11): a term sets L where it equals L and lies below MAX; 0 while the island does not
run. -/
def dmpCl (s : State) (c : Nat) : W32 :=
  if !islandRuns s c then 0
  else
  let k := clusterOf s c
  let l := levelOf s k
  let sets := fun (t : Nat) => one (!k.droop && t == l && decide (t < dmpMax s))
  word (l + 128 * one k.droop + 256 * sets k.current + 512 * sets k.thermal + 1024 * sets k.budget +
    2048 * one (k.change != .none) + 65536 * k.fcode + 2 ^ 22 * k.tcode)

/-- HK_CH of a channel (Table PWR-11). -/
def hkLive (s : State) (n : Nat) : W32 :=
  let h := hkOf s n
  word (h.value.toNat + 2 ^ 16 * one (h.valid && isReady s) + 2 ^ 17 * one h.failed + 2 ^ 18 * one h.standin +
    2 ^ 24 * h.round.toNat)

/-- FAULT_N and THROT_N of MOD_SB, as their low-active levels (Table MOD-9). -/
def faultN (s : State) : Bool := !(bit (gget 0x2000 s) 0 || s.power.trip)

/-- THROT_N: low while a stack is in band 3 or a thermal term is below 64. -/
def throtN (s : State) : Bool :=
  !(Tab.get 0 0 s.power.band == 3 || Tab.get 0 1 s.power.band == 3 || s.clusters.any (fun e => decide (e.2.thermal < 64)))

/-- MOD_SB (Table MOD-13). -/
def modSb (s : State) : W32 :=
  word (one s.power.en + 2 * one (!s.pcie.perst) + 4 * one (isReady s) + 8 * one (faultN s) + 16 * one (throtN s))

/-- MOD_FW: version of the booted firmware copy, and of the microcode. -/
def modFw (s : State) : W32 :=
  word ((if s.firmware.booted = 0 then 0 else (copyVersion s.firmware s.firmware.booted).toNat) + s.firmware.ucode.toNat * 65536)

/-- The repair-map word that ECC_REP_SEL selects (Table ECC-9). -/
def repWord (s : State) : W32 :=
  let w := gget 0x2020 s
  if fld w 19 16 < 15 then flowAt s (mapBase (fld w 9 0) + fld w 19 16) else 0

/-- Registers of the global block that only show state. -/
def globalShown (s : State) (off : Nat) : Option W32 :=
  match off with
  | 0x100 => some (s.time.truncate 32)
  | 0x104 => some ((s.time >>> 32).truncate 32)
  | 0x200 => some (strStat s)
  | 0x208 => some (flowAt s 0 &&& 0x3#32)
  | 0x20C => some (flowAt s 1 &&& 0x1FFF#32)
  | 0x210 => some s.img.imageId
  | 0x600 => some (flwStat s)
  | 0x608 => some (flwWear s)
  | 0x1000 => some (lnkCfg s)
  | 0x1004 => some (word (((List.range 24).filter (fun p => (portOf s p).st == .active)).map (2 ^ ·)).sum)
  | 0x1008 => some s.linkId
  | 0x2024 => some (repWord s)
  | 0x3000 => some (pwrStat s)
  | 0x3008 => some (word (capOf s + capMax s * 65536))
  | 0x302C => some (setFld (setFld (gget 0x302C s) 23 16 (storedGuard s 0)) 31 24 (storedGuard s 1))
  | 0x3030 => some (word (throttle s + tripTemp s * 256 + hyst s * 65536))
  | 0x400C => some (modFw s)
  | 0x4010 => some (modSb s)
  | 0x401C => some (word (s.pcie.speed + 8 * s.pcie.width))
  | 0x4124 => some (setBit (gget 0x4124 s) 0 (ringFull s none))
  | 0x5004 => some (setFld (gget 0x5004 s) 1 0 (lntStateCode s.lnt))
  | 0x2000004 => some (setBit (gget 0x2000004 s) 0 s.mbxCmd.isSome)
  | _ => none

/-- Whether a shadow slot exists at an offset into the operation shadows (R398). -/
def opSlot (b : Nat) : Bool := decide (b < 64 ∨ (156 ≤ b ∧ b < 188))

/-- Whether PF BAR0 has a register at an offset outside the chamber blocks. -/
def globalHas (off : Nat) : Bool :=
  (globalSpec off).isSome || decide ((0x300 ≤ off ∧ off < 0x600 ∧ apvHas (off - 0x300)) ∨ (0x3100 ≤ off ∧ off < 0x3200) ∨
    (0x3200 ≤ off ∧ off < 0x3200 + 4 * 94) ∨ (0x3400 ≤ off ∧ off < 0x3400 + 4 * 224) ∨
    (0x3000000 ≤ off ∧ off < 0x3000000 + 0x100 * 188)) ||
  decide (0x3020000 ≤ off ∧ off < 0x3020000 + 0x100 * 188) && opSlot ((off - 0x3020000) / 0x100)

/-- What a word of PF BAR0 outside the chamber blocks reads as. -/
def globalLive (s : State) (off : Nat) : W32 :=
  if 0x240 ≤ off ∧ off < 0x2A0 then flowAt s (2 + (off - 0x240) / 4)
  else if 0x300 ≤ off ∧ off < 0x600 then apvLive s.apv (off - 0x300)
  else if 0x1100 ≤ off ∧ off < 0x1700 then portLive s ((off - 0x1100) / 0x40) ((off - 0x1100) % 0x40)
  else if 0x3100 ≤ off ∧ off < 0x3200 then dmpCl s ((off - 0x3100) / 4)
  else if 0x3200 ≤ off ∧ off < 0x3200 + 4 * 94 then
    let i := (off - 0x3200) / 4
    setFld (gget off s) 15 8 (islandBase s (i / 47) (i % 47))
  else if 0x3400 ≤ off ∧ off < 0x3400 + 4 * 224 then hkLive s ((off - 0x3400) / 4)
  else if 0x400000 ≤ off ∧ off < 0x400040 then if globalHas off then dbgGet s 0 (off - 0x400000) else 0
  else if 0x800000 ≤ off ∧ off < 0x800040 then if globalHas off then dbgGet s 1 (off - 0x800000) else 0
  else if 0x3000000 ≤ off ∧ off < 0x3000000 + 0x100 * 188 then
    wordAt (shadowBytes (Tab.get {} ((off - 0x3000000) / 0x100) s.shadows)) (off % 0x100)
  else if 0x3020000 ≤ off ∧ off < 0x3020000 + 0x100 * 188 then
    let b := (off - 0x3020000) / 0x100
    if opSlot b then wordAt (shadowBytes (Tab.get {} b s.opShadows)) (off % 0x100) else 0
  else
    match globalShown s off with
    | some w => w
    | none => if (globalSpec off).isSome then gget off s else 0

/-! ## Where an offset leads (R11, R13) -/

/-- What a BAR0 word of a function is: a word of a chamber's block, or one of the rest of PF BAR0. -/
inductive Place where
  | chm (n off : Nat)
  | global (off : Nat)
  | nowhere
  deriving DecidableEq, Repr

/-- Where a word of a function's BAR0 leads. -/
def placeOf (s : State) (fn : Fn) (off : Nat) : Place :=
  if fn = 0 then
    if 0x1000000 ≤ off ∧ off < 0x1800000 then .chm ((off - 0x1000000) / 0x40000) (off % 0x40000) else .global off
  else
    match fnCh s fn with
    | some n => .chm n off
    | none => .nowhere

/-- Size of a function's BAR0 (Table MOD-2). -/
def barSize (fn : Fn) : Nat := if fn = 0 then 2 ^ 26 else 0x40000

/-- Whether a function exists: the PF, or a VF that is enabled (R372). -/
def fnExists (s : State) (fn : Fn) : Bool := fn == 0 || (s.pcie.vfEnable && decide (fn.val ≤ s.pcie.vfCount))

/-- Whether a memory request of a function reaches its registers. -/
def fnUp (s : State) (fn : Fn) : Bool := hostUp s && fnExists s fn && !(fn == 0 && s.pcie.d3hot)

/-- The buffers of the mailbox range (R41, R381): byte-addressed, not registers. -/
def isBuffer (off : Nat) : Bool := decide ((0x2001000 ≤ off ∧ off < 0x2003000) ∨ (0x2100000 ≤ off ∧ off < 0x2200000))

/-- A byte of a buffer. -/
def bufferByte (s : State) (off : Nat) : W8 :=
  if off < 0x2002000 then Tab.get 0 (off - 0x2001000) s.mbxReq
  else if off < 0x2003000 then Tab.get 0 (off - 0x2002000) s.mbxResp
  else Tab.get 0 (off - 0x2100000) s.staging

/-- The four bytes of a buffer word. -/
def bufferWord (s : State) (off : Nat) : W32 := word (leNat ((List.range 4).map (fun i => bufferByte s (off + i))))

/-! ## Reads (R6, R407) -/

/-- The low words of counter pairs (R6). -/
def isPairLow (p : Place) : Bool :=
  match p with
  | .chm _ off => chmPairs.contains off
  | .global off => globalPairs.contains off
  | .nowhere => false

/-- Key of a holding copy: function and BAR0 offset of the low word. -/
def holdKey (fn : Fn) (off : Nat) : Nat := fn.val * 2 ^ 26 + off

/-- The live value of a word. -/
def liveWord (s : State) (p : Place) : W32 :=
  match p with
  | .chm n off => chmLive s n off
  | .global off => if isBuffer off then bufferWord s off else globalLive s off
  | .nowhere => 0

/-- The place one word below. -/
def below (p : Place) : Place :=
  match p with
  | .chm n off => .chm n (off - 4)
  | .global off => .global (off - 4)
  | .nowhere => .nowhere

/-- The place one word above. -/
def above (p : Place) : Place :=
  match p with
  | .chm n off => .chm n (off + 4)
  | .global off => .global (off + 4)
  | .nowhere => .nowhere

/-- The die whose register interface serves a word (R9). -/
def placeDie (s : State) (p : Place) : Nat :=
  match p with
  | .chm n _ => leaderDie (chOf s n)
  | .global off => if 0x800000 ≤ off ∧ off < 0xC00000 then 1 else 0
  | .nowhere => 0

/-- A register access served counts at the die (Table OBS-2). -/
def countAccess (s : State) (p : Place) : State := bump (64 + placeDie s p) 4 1 s

/-- Whether a place lies in the block of a chamber that the image does not define: a reserved range (R13). -/
def noBlock (s : State) (p : Place) : Bool :=
  match p with
  | .chm n _ => !defined s n
  | .global _ => false
  | .nowhere => true

/-- One 32-bit read (R6): the low word of a pair latches the high word; the next read of the high word returns the
copy. -/
def readWord (fn : Fn) (off : Nat) (s : State) : W32 × State :=
  let p := placeOf s fn off
  let s1 := countAccess s p
  let setHold := fun (k : Nat) (v : Option W32) => { s1 with hold := Tab.set none k v s1.hold }
  if noBlock s p then (0, s1)
  else if isPairLow p then (liveWord s p, setHold (holdKey fn off) (some (liveWord s (above p))))
  else if 4 ≤ off ∧ isPairLow (below p) then
    match Tab.get none (holdKey fn (off - 4)) s.hold with
    | some w => (w, setHold (holdKey fn (off - 4)) none)
    | none => (liveWord s p, s1)
  else (liveWord s p, s1)

/-- Reads words in ascending address. -/
def readWords (fn : Fn) : List Nat → State → Bytes × State
  | [], s => ([], s)
  | off :: l, s =>
    let r := readWord fn off s
    let q := readWords fn l r.2
    (natLe 4 r.1.toNat ++ q.1, q.2)

/-- A BAR0 read of any length and alignment (R407). -/
def bar0Read (fn : Fn) (off len : Nat) (s : State) : State :=
  if !fnUp s fn ∨ barSize fn < off + len then emit (.cplUr fn) s
  else
    let r := readWords fn (granules 4 off len) s
    emit (.cpl fn (slice r.1 (off % 4) len) false) r.2

/-- COUNTER_LOW_READ (R6, R407): a BAR0 read; every register word that it touches is read in this way. -/
def execCounterLowRead (fn : Fn) (off : BitVec 26) (len : BitVec 13) (s : State) : Host.Outcome State Fault Refusal :=
  .next (bar0Read fn off.toNat len.toNat s)

end Sys2Proof.Machine
end

