-- ==== Sys2Proof/Machine/MatrixCheck.lean ====
section
/-! DEFINITION. MatrixCheck.lean: the staging checks of MATMUL and CONV (R65, R66, R90 to R115). -/
namespace Sys2Proof.Machine
open Sys2Proof

/-- One failure: descriptor byte offset and event code (R115). -/
abbrev Fail := Nat × Nat

/-- A failure if `b` holds. -/
def failIf (b : Bool) (off code : Nat) : List Fail := if b then [(off, code)] else []

/-- Codes of Table NUM-1. -/
def fmtValid (f : Nat) : Bool := decide (1 ≤ f ∧ f ≤ 9)

/-- Address bits [63:48] not zero (R111). -/
def badAddr (a : Nat) : Bool := decide (a / 2 ^ 48 ≠ 0)

/-- Output formats of an accumulator format (R103). -/
def outAllowed (acc f : Nat) : Bool :=
  if acc = 9 then f == 9 || f == 8 || f == 6
  else f == 1 || f == 2 || f == 3 || f == 4 || f == 7 || f == 8 || f == 9

/-- The code word of C in bytes: of SPACE_C, or of the owner's space under REDUCE (R114, R200). -/
def cWord (o : Op) : Nat :=
  if accOut o = 3 then (if df o 0x30 8 / 2 ^ 48 % 2 = 1 then 32 else 64) else wordOf (fld (control o) 15 14)

/-- Format checks that MATMUL and CONV share (R65, R66, R100, R101, R103). -/
def fmtFails (o : Op) : List Fail :=
  let a := df o 0x58 1
  let b := df o 0x59 1
  let c := df o 0x5A 1
  let valid := fmtValid a && fmtValid b
  failIf (!fmtValid a) 0x58 0x601 ++ failIf (!fmtValid b) 0x59 0x601 ++ failIf (!fmtValid c) 0x5A 0x601 ++
  failIf (valid && (pairAcc a b).isNone) 0x58 0x601 ++
  (match pairAcc a b with
   | some acc =>
     failIf (fmtValid c && !outAllowed acc c) 0x5A 0x602 ++
     failIf (fmtValid c && accOut o == 3 && !(c == 7 || c == 8 || c == 9)) 0x5A 0x602 ++
     failIf (fmtValid c && accIn o == 1 && c != acc) 0x5A 0x602 ++
     failIf (bit (control o) 26 && acc == 9) 0x5C 0x602
   | none => [])

/-- CONTROL checks that MATMUL and CONV share (R100, R101, Table ENG-6). A diagonal operation ignores G. Table ENG-8
names no code for G = 3, ACC_IN = 3, a refused SPACE, TRANS or MODE: 0x0603 is the model's choice (log entry 101). -/
def controlFails (ch : Chamber) (o : Op) : List Fail :=
  let w := control o
  let diag := opType o == 1 && df o 0x5B 1 == 1
  failIf (fld w 1 0 == 3 && !diag) 0x5C 0x603 ++ failIf (accIn o == 3) 0x5C 0x603 ++
  failIf (decide (2 ≤ fld w 11 10)) 0x5C 0x603 ++ failIf (decide (2 ≤ fld w 13 12)) 0x5C 0x603 ++
  failIf (decide (2 ≤ fld w 15 14) && accOut o != 3) 0x5C 0x603 ++ failIf (bit w 31) 0x5C 0x603 ++
  failIf (accIn o == 1 && accOut o == 3) 0x5C 0x603 ++
  failIf ((accOut o == 1 || accOut o == 2) &&
    decide ((opCores ch o.list).length < tileCount o * opP ch o)) 0x5C 0x604

/-- Address checks that MATMUL and CONV share (R111). -/
def addrFails (o : Op) : List Fail :=
  failIf (badAddr (df o 0x10 8)) 0x10 0x603 ++
  failIf (blockScaled (df o 0x58 1) && badAddr (df o 0x18 8)) 0x18 0x603 ++
  failIf (badAddr (df o 0x20 8)) 0x20 0x603 ++
  failIf (blockScaled (df o 0x59 1) && badAddr (df o 0x28 8)) 0x28 0x603 ++
  failIf (accOut o != 3 && badAddr (df o 0x30 8)) 0x30 0x603 ++
  failIf (blockScaled (df o 0x5A 1) && badAddr (df o 0x38 8)) 0x38 0x603 ++
  failIf (df o 0x30 8 % cWord o != 0) 0x30 0x603

/-- Whether `n` output elements of C_FMT do not fill whole code words, or whole blocks (R114). -/
def partWord (o : Op) (n : Nat) : Bool :=
  let f := df o 0x5A 1
  n * eltBits f % (8 * cWord o) != 0 || (blockScaled f && n % 32 != 0)

/-- Whether a dimension lies outside 1 to `hi`. -/
def outside (v hi : Nat) : Bool := v == 0 || decide (hi < v)

/-- The failures of a MATMUL (Table ENG-5, R106, R109, R112). -/
def matmulFails (ch : Chamber) (o : Op) : List Fail :=
  let w := control o
  let diag := df o 0x5B 1 == 1
  let m := df o 0x40 4
  let n := df o 0x44 4
  let k := df o 0x48 4
  let scaledIn := blockScaled (df o 0x58 1) || blockScaled (df o 0x59 1)
  addrFails o ++ fmtFails o ++ controlFails ch o ++
  failIf (outside m 16777215) 0x40 0x603 ++ failIf (outside n 16777215) 0x44 0x603 ++
  failIf (!diag && outside k 16777215) 0x48 0x603 ++
  failIf (partWord o m) 0x40 0x603 ++ failIf (diag && scaledIn && m % 32 != 0) 0x40 0x603 ++
  failIf (df o 0x4C 4 % 32 != 0) 0x4C 0x603 ++ failIf (df o 0x50 4 % 32 != 0) 0x50 0x603 ++
  failIf (df o 0x54 4 % cWord o != 0) 0x54 0x603 ++ failIf (decide (1 < df o 0x5B 1)) 0x5B 0x603 ++
  failIf (!diag && bit w 8 && (m % 32 != 0 || k % 32 != 0)) 0x5C 0x603 ++
  failIf (!diag && bit w 9 && (n % 32 != 0 || k % 32 != 0)) 0x5C 0x603 ++
  failIf (bit w 25 && (ch.cls != 1 || diag)) 0x5C 0x605 ++
  failIf (!zeroAt o.desc 0x6E 2) 0x6E 0x603 ++ failIf (!zeroAt o.desc 0x74 4) 0x74 0x603 ++
  failIf (bit w 25 && (badAddr (df o 0x78 8) || df o 0x78 8 % 64 != 0)) 0x78 0x603

/-- Output extent of a CONV axis (Table ENG-7): floor((in + 2 pad − r) / stride) + 1. -/
def convOut (inp pad r stride : Nat) : Int := ((inp : Int) + 2 * pad - r) / (stride : Int) + 1

/-- The failures of a CONV (Table ENG-7, R113). -/
def convFails (ch : Chamber) (o : Op) : List Fail :=
  let w := control o
  let sh := df o 0x4E 1 / 16
  let sw := df o 0x4E 1 % 16
  let scaledIn := blockScaled (df o 0x58 1)
  addrFails o ++ fmtFails o ++ controlFails ch o ++
  failIf (df o 0x40 2 == 0) 0x40 0x603 ++ failIf (df o 0x42 2 == 0) 0x42 0x603 ++
  failIf (df o 0x44 2 == 0 || (scaledIn && df o 0x44 2 % 32 != 0)) 0x44 0x603 ++
  failIf (df o 0x46 2 == 0 || partWord o (df o 0x46 2)) 0x46 0x603 ++
  failIf (sh != 0 && (((df o 0x48 2 : Nat) : Int) != convOut (df o 0x40 2) (df o 0x4F 1 / 16) (df o 0x4C 1) sh ||
    df o 0x48 2 == 0)) 0x48 0x603 ++
  failIf (sw != 0 && (((df o 0x4A 2 : Nat) : Int) != convOut (df o 0x42 2) (df o 0x4F 1 % 16) (df o 0x4D 1) sw ||
    df o 0x4A 2 == 0)) 0x4A 0x603 ++
  failIf (outside (df o 0x4C 1) 15) 0x4C 0x603 ++ failIf (outside (df o 0x4D 1) 15) 0x4D 0x603 ++
  failIf (sh == 0 || sw == 0) 0x4E 0x603 ++ failIf (df o 0x50 2 == 0) 0x50 0x603 ++
  failIf (!zeroAt o.desc 0x52 6) 0x52 0x603 ++ failIf (df o 0x5B 1 != 0) 0x5B 0x603 ++
  failIf (bit w 25) 0x5C 0x605 ++ failIf (bit w 8 || bit w 9) 0x5C 0x603 ++
  failIf (!zeroAt o.desc 0x6E 2) 0x6E 0x603 ++ failIf (!zeroAt o.desc 0x74 12) 0x74 0x603

/-- The failure that is reported: lowest offset, then lowest code (R115). -/
def firstFail (l : List Fail) : Option Fail :=
  l.foldl (fun (m : Option Fail) f =>
    match m with
    | none => some f
    | some b => if f.1 < b.1 ∨ (f.1 = b.1 ∧ f.2 < b.2) then some f else m) none

/-- The check of a matrix descriptor at staging. -/
def matrixFail (ch : Chamber) (o : Op) : Option Fail :=
  firstFail (if opType o = 2 then convFails ch o else matmulFails ch o)

end Sys2Proof.Machine
end

