-- ==== Sys2Proof/Machine/Stage.lean ====
section
/-! DEFINITION. Stage.lean: the header check at fetch (R218, R221) and the body checks of every type at
staging (R136, R207, R228, R229, R234, R238, R253, R264, R273, R401). -/
namespace Sys2Proof.Machine
open Sys2Proof

/-- Whether a header is refused (R221): unknown TYPE, reserved field, DONE_CNT above 4,095. -/
def headerBad (o : Op) : Bool :=
  !(decide (1 ≤ opType o ∧ opType o ≤ 12)) || df o 1 1 / 4 != 0 || decide (4095 < doneCnt o) || !zeroAt o.desc 0xC 4

/-- Why a body is refused: event code and what it does to the fault registers. -/
structure Refusal_ where
  code : Nat
  reg : Chamber → Chamber

/-- A KERNEL body (R136, Table THR-1). -/
def kernelBad (n : Nat) (o : Op) (s : State) : Bool :=
  df o 0x10 8 % 8 != 0 || df o 0x18 8 % 8 != 0 || df o 0x20 8 % 64 != 0 || outside (kBlocks o) 16777215 ||
  outside (kGroups o) 32 || !zeroAt o.desc 0x2D 1 || kSpill o % 64 != 0 || decide (1024 < kSpill o) ||
  kShared o % 64 != 0 || decide (65536 < kShared o) || !zeroAt o.desc 0x34 4 || !zeroAt o.desc 0x44 60 ||
  !fitsEmpty n o s

/-- A TRANSFER body (R234, Table OPS-9). -/
def transferBad (c : Chamber) (o : Op) : Bool :=
  df o 0x10 8 % 64 != 0 || df o 0x18 8 % 64 != 0 || df o 0x20 8 % 64 != 0 || decide (3 < df o 0x28 1) ||
  decide (3 < df o 0x29 1) || decide (fld (cget 0x918 c) 18 0 ≤ streamOf o) || outside (df o 0x30 4) 60000 ||
  !zeroAt o.desc 0x2A 2 || !zeroAt o.desc 0x34 76

/-- A REDUCE body (R238, Table OPS-11). -/
def reduceBad (o : Op) : Bool :=
  !(df o 0x28 1 == 7 || df o 0x28 1 == 8) || decide (2 < df o 0x29 1) || df o 0x10 8 % 64 != 0 ||
  df o 0x18 8 % (if df o 0x2B 1 = 1 then 4 else 64) != 0 || decide (1 < df o 0x2B 1) ||
  decide (1 < df o 0x2A 1) || (df o 0x2B 1 == 0 && decide (1 < df o 0x2C 1)) || !zeroAt o.desc 0x2D 83

/-- An UPDATE body (R264, Table OPT-2). -/
def updateBad (c : Chamber) (o : Op) : Bool :=
  let w : W32 := BitVec.ofNat 32 (df o 0x60 4)
  df o 0x10 8 % 64 != 0 || df o 0x18 8 % 64 != 0 || df o 0x20 8 % 64 != 0 || df o 0x28 8 % 64 != 0 ||
  df o 0x30 8 % 64 != 0 || df o 0x38 8 % 4 != 0 || df o 0x40 8 % 64 != 0 ||
  df o 0x58 4 % 64 != 0 || outside (df o 0x58 4) (2 ^ 31) ||
  decide (1 < fld w 1 0) || decide (1 < fld w 3 2) || decide (1 < fld w 5 4) || decide (4095 < df o 0x64 2) ||
  (bit w 8 && !bit (cget 0xE40 c) 0) || fld w 31 10 != 0 || !zeroAt o.desc 0x6C 20

/-- A SIGNAL body (R229, Table OPS-7). The manual names PEER, COUNTER and MODE; the bytes that Table
OPS-7 fixes at 0 are checked with them (log entry 29). -/
def signalBad (c : Chamber) (o : Op) : Bool :=
  (df o 0x10 1 != 0xFF && decide (c.peers.length ≤ df o 0x10 1)) || decide (1 < df o 0x11 1) ||
  decide (4095 < df o 0x12 2) || !zeroAt o.desc 0x18 104

/-- A WAIT body (R228, Table OPS-6). -/
def waitBad (o : Op) : Bool := decide (4095 < df o 0x10 2) || !zeroAt o.desc 0x12 2 || !zeroAt o.desc 0x18 104

/-- An EPOCH body (R253, Table PIP-2). -/
def epochBad (o : Op) : Bool :=
  decide (1 < df o 0x10 1) || df o 0x11 1 / 2 != 0 || outside (df o 0x14 4) 60000 || !zeroAt o.desc 0x18 104

/-- A SNAPSHOT body (R401, Table OBS-4). -/
def snapshotBad (o : Op) : Bool :=
  decide (2 < df o 0x18 1) || (df o 0x18 1 != 2 && df o 0x10 8 % 64 != 0) || !zeroAt o.desc 0x19 103

/-- A SEAL body (R273, Table OPT-6). -/
def sealBad (c : Chamber) (o : Op) : Bool :=
  let w := df o 0x14 4
  (w % 2 == 1 && df o 0x18 8 % 4 != 0) || w / 8 != 0 || !zeroAt o.desc 0x20 96 ||
  (w / 4 % 2 == 1 && !bit (cget 0xE40 c) 0)

/-- A FLUSH body (R207, Table ECH-7). BASE and LENGTH are ignored under ALL. -/
def flushBad (c : Chamber) (o : Op) : Bool :=
  let w := df o 0x20 4
  let all := w / 4 % 2 == 1
  w % 4 == 0 || w / 16 != 0 || !zeroAt o.desc 0x26 90 ||
  (!all && (df o 0x10 8 % 256 != 0 || df o 0x18 8 % 256 != 0 || decide (2 ^ 48 < df o 0x18 8) ||
    badRemote c (df o 0x10 8)))

/-- ECH_STAT.LAST_CODE and the echo fault registers of a refused FLUSH, which sets no status bit
(Table ECH-8). -/
def flushReg (o : Op) (c : Chamber) : Chamber :=
  if noCode c 0x804 then
    csetPair 0x848 (df o 0x10 8) (cset 0x844 o.seq (cmod 0x804 (firstCode 0xA07) c))
  else c

/-- The group-fault registers of a refused KERNEL (Table THR-9). -/
def kernelReg (o : Op) (c : Chamber) : Chamber :=
  if noCode c 0x600 then cset 0x604 o.seq (cmod 0x600 (fun w => firstCode 0x804 (setBit w 0 true)) c)
  else cmod 0x600 (fun w => setBit w 0 true) c

/-- OPS_FAULT_INFO of a refused or timed-out WAIT or SIGNAL (Table OPS-12). -/
def counterInfo (k : Nat) : Nat := k % 4096 * 2 ^ 18 + (if 4095 < k then 2 ^ 30 else 0)

/-- The body check of an operation at staging. -/
def bodyRefusal (n : Nat) (o : Op) (s : State) : Option Refusal_ :=
  let c := chOf s n
  let seq := o.seq.toNat
  match opType o with
  | 1 => (matrixFail c o).map (fun f => ⟨f.2, engFault f.2 seq (f.1 + o.list * 256)⟩)
  | 2 => (matrixFail c o).map (fun f => ⟨f.2, engFault f.2 seq (f.1 + o.list * 256)⟩)
  | 3 => if kernelBad n o s then some ⟨0x804, kernelReg o⟩ else none
  | 4 => if transferBad c o then some ⟨0xB06, opsFault 0xB06 seq (streamOf o % 2 ^ 18)⟩ else none
  | 5 => if reduceBad o then some ⟨0xB06, opsFault 0xB06 seq 0⟩ else none
  | 6 => if updateBad c o then some ⟨0xD04, optFault 0xD04 seq⟩ else none
  | 7 => if signalBad c o then some ⟨0xB07, opsFault 0xB07 seq (counterInfo (df o 0x12 2))⟩ else none
  | 8 => if waitBad o then some ⟨0xB07, opsFault 0xB07 seq (counterInfo (df o 0x10 2))⟩ else none
  | 9 => if epochBad o then some ⟨0xC02, pipFault 0xC02⟩ else none
  | 0xA => if snapshotBad o then some ⟨0x1203, id⟩ else none
  | 0xB => if sealBad c o then some ⟨0xD07, optFault 0xD07 seq⟩ else none
  | _ => if flushBad c o then some ⟨0xA07, flushReg o⟩ else none

/-- Refuses an operation: event, retirement REFUSED, halt of the chamber (R115, R221). -/
def refuseOp (n : Nat) (o : Op) (r : Refusal_) (s : State) : State := failOp n o.seq .refused r.code [] r.reg s

end Sys2Proof.Machine
end

