-- ==== Sys2Proof/Machine/Streams.lean ====
section
/-! DEFINITION. Streams.lean: transfer streams (R234 to R237) and the host requests that they use (R375). -/
namespace Sys2Proof.Machine
open Sys2Proof

/-- Stream `i` of a chamber. -/
def streamAt (c : Chamber) (i : Nat) : Stream := Tab.get {} i c.streams

/-- Puts a stream; a change of STATE also goes to the stream table (R235, log entry 28). -/
def putStream (n i : Nat) (t : Stream) (s : State) : State :=
  let c := chOf s n
  let s1 := setCh n { c with streams := Tab.set {} i t c.streams } s
  ifdo (t.st != (streamAt c i).st) (copyStream n i) s1

/-- Source and destination spaces of a stream. -/
def srcSpace (t : Stream) : Nat := t.spaces.toNat % 16
/-- Destination space of a stream. -/
def dstSpace (t : Stream) : Nat := t.spaces.toNat / 16

/-- Bytes of the range that have arrived. -/
def arrivedBytes (t : Stream) : Nat := t.pushed + t.held.length

/-- Whether a stream moves bytes now. -/
def streamLive (t : Stream) : Bool := t.st == 1 || t.st == 2

/-- Length of the next burst: up to 256 B, within one 256 B line of the source (R236). -/
def burstLen (t : Stream) : Nat :=
  let a := t.src.toNat + arrivedBytes t
  min (256 - a % 256) (t.length - arrivedBytes t)

/-- A host read of a function by the transfer engine of a die (R374, R375). -/
def hostRead (fn : Fn) (die n : Nat) (seq : W32) (stream addr len : Nat) (s : State) : State :=
  let tag := s.pcie.hostTag
  let r : HostRead := { tag := tag, fn := fn, ch := n, seq := seq, stream := stream,
                        addr := BitVec.ofNat 64 addr, len := len, issued := s.time }
  let p := { s.pcie with hostTag := tag + 1 }
  bump (66 + die) 11 len
    (emit (.hostRead fn tag (BitVec.ofNat 64 addr) len) { s with hostReads := s.hostReads ++ [r], pcie := p })

/-- Host reads that the module holds outstanding, over all functions (R372). -/
def hostReadLimit : Nat := 768

/-- The longest read request of a function: its Max Read Request Size, 128 B to 4,096 B (R372). -/
def readLimit (s : State) (fn : Fn) : Nat := 128 * 2 ^ Tab.get 2 fn.val s.pcie.readSize

/-- A host request that the module cannot issue, or whose completion failed (R375): event 0x1103, and the
operation and chamber stop. -/
def dmaFail (n : Nat) (seq : W32) (s : State) : State := failOp n seq .fault 0x1103 [] id s

/-- The die of a place in a descriptor space of a chamber, if the space is local. -/
def dieAt (n space a : Nat) (s : State) : Option Nat :=
  match space with
  | 0 => (winLoc s (chOf s n) a).map (fun x => dieOfCore x.1)
  | 1 => match (translate n (agent 2) a false false s).1 with
    | .ok p => some (dieOfBulk p)
    | .error _ => none
  | _ => none

/-- The die whose transfer engine moves a stream's next bytes (R226): that of its destination; of its source, where the
destination is remote or the host; else the leader's. -/
def streamDie (n : Nat) (t : Stream) (s : State) : Nat :=
  match dieAt n (dstSpace t) (t.dst.toNat + t.pushed) s with
  | some d => d
  | none =>
    match (if 2 ≤ dstSpace t then dieAt n (srcSpace t) (t.src.toNat + t.pushed) s else none) with
    | some d => d
    | none => leaderDie (chOf s n)

/-- Asks the source for the next burst, where none is on its way (R236). A host read waits while 768 are outstanding
(R372). -/
def askBurst (n i : Nat) (s : State) : State :=
  let c := chOf s n
  let t := streamAt c i
  let a := t.src.toNat + arrivedBytes t
  if !streamLive t || arrivedBytes t == t.length then s
  else if srcSpace t = 2 then
    if c.reqs.any (fun r => r.kind == .streamRead && r.stream == i) then s
    else if badRemote c a then accessFault n t.seq 2 { code := 0xA01, addr := a, space := 3 } s
    else
      let tag := newTag c
      request n { tag := tag, kind := .streamRead, addr := BitVec.ofNat 64 (lineAddr a), deadline := 0, seq := t.seq,
                  pkt := toOwner s n (lineAddr a) 1 (addrField (lineAddr a) ++ natLe 4 tag), stream := i } s
  else if srcSpace t = 3 then
    if s.hostReads.any (fun r => r.ch == n && r.stream == i && r.seq == t.seq) then s
    else if !canIssue s (chFn s n) then dmaFail n t.seq s
    else if hostReadLimit ≤ s.hostReads.length then { s with hostWait := s.hostWait.filter (· != (n, i)) ++ [(n, i)] }
    else hostRead (chFn s n) (streamDie n t s) n t.seq i a (min (burstLen t) (readLimit s (chFn s n))) s
  else s

/-- Writes one 64 B unit of a stream to its destination (R234, R236). -/
def pushUnit (n i : Nat) (t : Stream) (unit : Bytes) (s : State) : Res Unit :=
  let c := chOf s n
  let a := t.dst.toNat + t.pushed
  match dstSpace t with
  | 0 => dStore n (agent 2) 0 a unit s
  | 1 => dStore n (agent 2) 1 a unit s
  | 2 =>
    if badRemote c a then (.error { code := 0xA01, addr := a, space := 3, write := true }, s)
    else (.ok (), remoteStore n t.seq a unit .streamStore i s)
  | _ =>
    let fn := chFn s n
    if canIssue s fn then
      (.ok (), bump (66 + streamDie n t s) 12 unit.length
        (emit (.hostWrite fn (BitVec.ofNat 64 a) unit (Tab.get false fn.val s.pcie.relaxed)) s))
    else (.error { code := 0x1103 }, s)

/-- OFFSET of a stream: the prefix written, short of the first store that is not acknowledged (R236). -/
def streamOffset (c : Chamber) (i : Nat) (t : Stream) : Nat :=
  match c.reqs.find? (fun r => r.kind == .streamStore && r.stream == i && r.seq == t.seq) with
  | some r => r.addr.toNat - t.dst.toNat
  | none => t.pushed

/-- Updates OFFSET and, when the range is complete, lets the TRANSFER finish (R237). -/
def streamProgress (n i : Nat) (s : State) : State :=
  let c := chOf s n
  let t := streamAt c i
  let off := streamOffset c i t
  let s1 := setCh n { c with streams := Tab.set {} i { t with offset := off } c.streams } s
  ifdo (off == t.length && streamLive t) (setOp n t.seq (fun o => { o with begun := true })) s1

/-- Writes the complete units among the bytes that a stream holds; `fuel` bounds their number. -/
def pushUnits (n i : Nat) : Nat → State → State
  | 0, s => s
  | fuel + 1, s =>
    let t := streamAt (chOf s n) i
    if t.held.length < 64 then s
    else
      let die := streamDie n t s
      match pushUnit n i t (t.held.take 64) s with
      | (.error e, u) => accessFault n t.seq 2 e u
      | (.ok (), u) =>
        let u1 := putStream n i { streamAt (chOf u n) i with pushed := t.pushed + 64, held := t.held.drop 64 } u
        pushUnits n i fuel (bump (66 + die) 0 64 u1)

/-- Source bytes of a stream arrive (R236): what is not yet written is held, complete units are written,
LAST_PROGRESS is now, STATE returns to ACTIVE, and the next burst is asked for. -/
def streamBytesIn (n i : Nat) (bs : Bytes) (s : State) : State :=
  let t := streamAt (chOf s n) i
  if !streamLive t || bs.isEmpty then s
  else
    let new := bs.take (t.length - arrivedBytes t)
    let s1 := putStream n i { t with held := t.held ++ new, lastProgress := s.time, st := 1 } s
    let s2 := pushUnits n i (arrivedBytes t + new.length) s1
    streamProgress n i s2

/-- What a burst of up to `k` bytes from local memory delivers. -/
def localBurst (n : Nat) (t : Stream) (k : Nat) (s : State) : Res Bytes :=
  dLoad n (agent 2) (srcSpace t) (t.src.toNat + arrivedBytes t) (min k (burstLen t)) s

/-- TRANSFER: the executing TRANSFER asks for its source (R234, R236). -/
def execTransfer (ch : Fin 32) (seq : W32) (s : State) : Host.Outcome State Fault Refusal :=
  match executing s ch.val seq [4] with
  | some o => .next (settleAll ch.val (askBurst ch.val (streamOf o) s))
  | none => .next s

/-- The streams that wait for room ask again, in order, as far as there is room (R372). -/
def drainHost (s : State) : State :=
  forAll (s.hostWait.take (hostReadLimit - s.hostReads.length)) (fun e t =>
    askBurst e.1 e.2 { t with hostWait := t.hostWait.filter (· != e) }) s

/-- Bytes of a host read arrive: the read ends, or asks for what is left (a completion may be split), and its
stream takes the bytes if the TRANSFER still runs (R236, R375). -/
def hostBytes (r : HostRead) (data : Bytes) (s : State) : State :=
  let bs := data.take r.len
  let rest := if bs.length = r.len then s.hostReads.erase r
    else s.hostReads.map (fun q =>
      if q = r then { r with addr := r.addr + BitVec.ofNat 64 bs.length, len := r.len - bs.length } else q)
  let s1 := { s with hostReads := rest }
  drainHost (if (streamAt (chOf s r.ch) r.stream).seq = r.seq then
      askBurst r.ch r.stream (streamBytesIn r.ch r.stream bs s1)
    else s1)

/-- The data that has arrived of a READ_DATA packet of which a port has received only part (R236, R290, R304): it names
the chamber and the tag, comes from a peer (R297) and carries status OK. -/
def partData (s : State) (n tag : Nat) : Bytes :=
  (((List.range 24).flatMap (fun p => (Tab.get {} p s.ports).rx)).findSome? (fun e =>
    match e.2 with
    | some k =>
      let bs := k.pieces.flatMap (·.bytes)
      let h := pktOf bs
      if k.way = .here ∧ 16 ≤ bs.length ∧ h.ptype = 8 ∧ h.dstCh = n ∧ isPeer (chOf s n) h.srcMod h.srcCh ∧
          at_ bs 8 4 = tag then some (bs.drop 16)
      else none
    | none => none)).getD []

/-- What has arrived of a stream's burst from a remote owner and is not yet handed to its engine. -/
def partBurst (n i : Nat) (t : Stream) (s : State) : Bytes :=
  let a := t.src.toNat + arrivedBytes t
  match (chOf s n).reqs.find? (fun r => r.kind == .streamRead && r.stream == i && r.seq == t.seq && !r.late) with
  | some r => if lineAddr a = r.addr.toNat then ((partData s n r.tag).drop (a % 256)).take (burstLen t) else []
  | none => []

/-- SOURCE_BURST_ARRIVAL (R236): up to `n` bytes arrive. From local memory they are the bytes stored
there; from the host they are the first `n` bytes of `data`, for the read that is outstanding; from a remote
owner they are what a port has received of a READ_DATA packet that is not yet whole. -/
def execSourceBurstArrival (ch : Fin 32) (stream : BitVec 18) (n : BitVec 9) (data : Bytes) (s : State) :
    Host.Outcome State Fault Refusal :=
  let i := stream.toNat
  let t := streamAt (chOf s ch.val) i
  if !streamLive t then .next s
  else if srcSpace t ≤ 1 then
    match localBurst ch.val t n.toNat s with
    | (.ok bs, u) => .next (settleAll ch.val (streamBytesIn ch.val i bs u))
    | (.error e, u) => .next (settleAll ch.val (accessFault ch.val t.seq 2 e u))
  else if srcSpace t = 3 then
    match s.hostReads.find? (fun r => r.ch == ch.val && r.stream == i && r.seq == t.seq) with
    | some r => .next (settleAll ch.val (hostBytes r (data.take n.toNat) s))
    | none => .next s
  else .next (settleAll ch.val (streamBytesIn ch.val i ((partBurst ch.val i t s).take n.toNat) s))

/-- STREAM_STALL (R236): bytes outstanding and none for 1 µs. -/
def execStreamStall (ch : Fin 32) (stream : BitVec 18) (s : State) : Host.Outcome State Fault Refusal :=
  let i := stream.toNat
  let c := chOf s ch.val
  let t := streamAt c i
  if t.st = 1 ∧ arrivedBytes t < t.length ∧ t.lastProgress.toNat + 1000 ≤ now s then
    .next (bump (66 + streamDie ch.val t s) 2 1 (putStream ch.val i { t with st := 2 } s))
  else .next s

/-- STALL_TIMEOUT (R237): the stream becomes TIMED_OUT, its TRANSFER retires TIMEOUT, the chamber halts. -/
def execStallTimeout (ch : Fin 32) (stream : BitVec 18) (s : State) : Host.Outcome State Fault Refusal :=
  let n := ch.val
  let i := stream.toNat
  let t := streamAt (chOf s n) i
  if streamLive t ∧ arrivedBytes t < t.length ∧ t.lastProgress.toNat + 1000000 * t.tmo.toNat ≤ now s then
    .next (settleAll n (failOp n t.seq .timeout 0xB05 [] (opsFault 0xB05 t.seq.toNat i)
      (putStream n i { t with st := 4, held := [] } s)))
  else .next s

/-! ## REDUCE (R238) -/

/-- The FP64 code of an element after FUNC. -/
def reduceElt (func : Nat) (x : XV) : Nat :=
  match func with
  | 0 => encodeF f64 .rne x
  | 1 => encodeF f64 .rne (mulX x x)
  | _ => encodeF f64 .rne (match x with
    | .fin _ m e => .fin false m e
    | .inf _ => .inf false
    | .nan => .nan)

/-- Combines two FP64 codes: RNE sum, or the larger. -/
def reduceJoin (func a b : Nat) : Nat :=
  let x := decodeF f64 a
  let y := decodeF f64 b
  if x = .nan ∨ y = .nan then f64.nanCode
  else if func = 2 then (match cmpX x y with | some c => if c < 0 then b else a | none => a)
  else encodeF f64 .rne (addX x y)

/-- The FP32 result over the elements' values, and the number of non-finite inputs. -/
def reduceResult (func : Nat) (xs : List XV) : W32 × Nat :=
  let bad := xs.countP (fun x => !x.finite)
  match xs with
  | [] => (0, 0)
  | x :: rest =>
    if xs.any (· == .nan) then (0x7FC00000#32, bad)
    else (r32 (decodeF f64 (rest.foldl (fun a y => reduceJoin func a (reduceElt func y)) (reduceElt func x))), bad)

/-- The work of a REDUCE; the result over no elements is not stated and is free (log entry 30). -/
def runReduce (n : Nat) (o : Op) (s : State) : State :=
  let c := chOf s n
  let fmt := df o 0x28 1
  let count := df o 0x20 8
  let size := if fmt = 7 then 2 else 4
  match dLoad n (agent 2) (df o 0x2A 1) (df o 0x10 8) (size * count) s with
  | (.error e, t) => accessFault n o.seq 2 e t
  | (.ok bs, t) =>
    let xs := (List.range count).map (fun i => decodeF (if fmt = 7 then bf16 else f32) (at_ bs (size * i) size))
    let f := if count = 0 then fresh t else (0, t)
    let r := if count = 0 then (f.1.setWidth 32, 0) else reduceResult (df o 0x29 1) xs
    let bad := if finite32 r.1 then 0 else 1
    let t1 := modCh n (fun d => caddPair 0xE10 bad (modOp o.seq (fun q => { q with nonfin := bad }) d)) f.2
    let fin := fun (u : State) => setOp n o.seq (fun q => { q with begun := true }) u
    if df o 0x2B 1 = 1 then
      let ra := df o 0x18 8
      if badRemote c ra then accessFault n o.seq 2 { code := 0xA01, addr := ra, space := 3, write := true } t1
      else fin (contribute n { seq := o.seq, fn := if df o 0x29 1 = 2 then 3 else 0,
                               addr := BitVec.ofNat 64 (lineAddr ra), hint := 0, mask := byteMask (ra % 256) 4,
                               data := List.replicate (ra % 256) 0 ++ natLe 4 r.1.toNat } t1)
    else
      let block := natLe 4 r.1.toNat ++ natLe 4 (min r.2 0xFFFFFFFF) ++ natLe 8 count ++ List.replicate 48 0
      match dStore n (agent 2) (df o 0x2C 1) (df o 0x18 8) block t1 with
      | (.error e, u) => accessFault n o.seq 2 e u
      | (.ok (), u) => fin u

/-- REDUCE: the work of an executing REDUCE (R238). -/
def execReduce (ch : Fin 32) (seq : W32) (s : State) : Host.Outcome State Fault Refusal :=
  match executing s ch.val seq [5] with
  | some o => if o.begun then .next s else .next (settleAll ch.val (runReduce ch.val o s))
  | none => .next s

end Sys2Proof.Machine
end

