-- ==== Sys2Proof/Machine/Host.lean ====
section
/-! DEFINITION. Host.lean: the PCIe endpoint (R371 to R375, R391), event-ring blocks and message holdoff (R378 to
R380), and the resets (R389, R390). -/
namespace Sys2Proof.Machine
open Sys2Proof

/-! ## Configuration state (R372 to R374, R379) -/

/-- Changes the endpoint. -/
def modPcie (f : Pcie → Pcie) (s : State) : State := { s with pcie := f s.pcie }

/-- The configuration state after a reset of the endpoint: VF Enable, bus masters, masks and the BAR2 size at
their defaults (log entry 60). -/
def configReset (q : Pcie) : Pcie :=
  { perst := q.perst, hostTag := q.hostTag, speed := q.speed, width := q.width, warm := q.warm,
    warmCause := q.warmCause }

/-- The configuration state of one function at its defaults. -/
def functionReset (fn : Fn) (q : Pcie) : Pcie :=
  { q with busMaster := Tab.set false fn.val false q.busMaster, relaxed := Tab.set false fn.val false q.relaxed,
           decode := Tab.set false fn.val false q.decode, readSize := Tab.set 2 fn.val 2 q.readSize,
           fnMask := Tab.set false fn.val false q.fnMask,
           vecMask := Tab.drop (fun k => k / 2048 == fn.val) q.vecMask,
           pba := Tab.drop (fun k => k / 2048 == fn.val) q.pba, due := Tab.drop (fun k => k / 2048 == fn.val) q.due,
           lastMsg := Tab.drop (fun k => k / 2048 == fn.val) q.lastMsg }

/-- The link goes down (R389, Table MOD-13: SPEED 0). -/
def linkDown (s : State) : State := modPcie (fun q => { q with speed := 0, width := 0 }) s

/-! ## Event-ring blocks (R378, Table MOD-5) -/

/-- The written bits of EVR_CFG: TO_PF reads 0 in the global ring's block (R380). -/
def evrCfgMask (r : Option Nat) : W32 := if r.isNone then 0x3F3F3F01 else 0x3F3F3F03

/-- A write of EVR_CFG: ignored where it would change a field other than EN while EN = 1; EN from 0 to 1 zeroes
EVR_WR and EVR_RD. -/
def writeEvrCfg (r : Option Nat) (v : W32) (s : State) : State :=
  let old := ringGet s r 0
  let new := v &&& evrCfgMask r
  if bit old 0 ∧ new >>> 1 ≠ old >>> 1 then eventG 0x1101 [] s
  else
    let s1 := ringSet r 0 new s
    if !bit old 0 && bit new 0 then ringSet r 0x18 0 (ringSet r 0x1C 0 s1) else s1

/-- The RW bits of EVR_SIZE, EVR_BASE and EVR_SHADOW, which stand still while EN = 1. -/
def evrFixed (off : Nat) : Option W32 :=
  match off with
  | 0x04 => some 0x1F
  | 0x08 => some 0xFFFFF000
  | 0x0C => some 0xFFFFFFFF
  | 0x10 => some 0xFFFFFFFC
  | 0x14 => some 0xFFFFFFFF
  | _ => none

/-- A write to an event-ring block. -/
def evrWrite (r : Option Nat) (off : Nat) (v : W32) (s : State) : State :=
  if off = 0 then writeEvrCfg r v s
  else
    match evrFixed off with
    | some m =>
      if bit (ringGet s r 0) 0 ∧ v &&& m ≠ ringGet s r off then eventG 0x1101 [] s else ringSet r off (v &&& m) s
    | none =>
      if off = 0x1C then ringSet r off v s
      else if off = 0x20 then ringSet r off (v &&& 0xFFFF#32) s
      else if off = 0x24 then ringSet r off (ringGet s r off &&& ~~~(v &&& 2#32)) s
      else s

/-! ## Message holdoff (R379) -/

/-- The ring whose EVR_HOLDOFF governs a vector (Table MOD-4). -/
def vectorRing (s : State) (fn : Fn) (v : Nat) : Option Nat :=
  if fn = 0 then (if 32 ≤ v ∧ v < 64 then some (v - 32) else none) else fnCh s fn

/-- HOLDOFF_EXPIRY (R379): one message covers what was written since the last one. -/
def execHoldoffExpiry (fn : Fn) (vector : BitVec 11) (s : State) : Host.Outcome State Fault Refusal :=
  let k := vecKey fn vector.toNat
  let us := fld (ringGet s (vectorRing s fn vector.toNat) 0x20) 15 0
  match Tab.get none k s.pcie.lastMsg with
  | some t =>
    if Tab.get false k s.pcie.due ∧ t.toNat + 1000 * us ≤ now s then
      .next (sendVec fn vector.toNat (modPcie (fun q => { q with due := Tab.set false k false q.due }) s))
    else .next s
  | none => .next s

/-- Messages whose pending bit is set and whose vector is no longer masked are sent (R379). -/
def sendPending (fn : Fn) (s : State) : State :=
  forAll (s.pcie.pba.filter (fun e => e.2 && decide (e.1 / 2048 = fn.val))) (fun e t =>
    if vecMasked t fn (e.1 % 2048) then t else sendVec fn (e.1 % 2048) t) s

/-! ## The warm reset (R389, R390) -/

/-- A cause of a warm reset, outside a running one and in Ready or Active: step 1 of R390. -/
def startWarm (cause : Nat) (s : State) : State :=
  if !isReady s || s.pcie.warm then s
  else
    let s1 := cancelLantern (cbistStop (swpAbortAll (haltEvery 0x1102 s)))
    { s1 with pcie := { s1.pcie with warm := true, warmCause := cause }, hostReads := [], hostWait := [], merge := [],
              bar2Wait := [], heldWrites := [] }

/-- PERST_ASSERT (R389, R390): a second cause is merged into the running reset. -/
def execPerstAssert (s : State) : Host.Outcome State Fault Refusal :=
  .next (modPcie (fun q => { configReset q with perst := true }) (linkDown (startWarm 1 s)))

/-- PERST_DEASSERT (R391). -/
def execPerstDeassert (s : State) : Host.Outcome State Fault Refusal :=
  .next (modPcie (fun q => { q with perst := false }) s)

/-- HOT_RESET (R389): hot reset or link down. -/
def execHotReset (s : State) : Host.Outcome State Fault Refusal :=
  .next (modPcie configReset (linkDown (startWarm 2 s)))

/-- PF_FLR (R389, R390): the link stays up, VF Enable clears. A function is reached only while it answers
configuration requests (R391). -/
def execPfFlr (s : State) : Host.Outcome State Fault Refusal :=
  if s.pcie.speed = 0 ∨ !isReady s then .next s
  else .next (modPcie configReset (startWarm 3 s))

/-- VF_FLR (R380): the block of the VF's chamber clears, then CHM_CTL.RESET. -/
def execVfFlr (k : Fin 32) (s : State) : Host.Outcome State Fault Refusal :=
  let fn : Fn := ⟨k.val + 1, by omega⟩
  if s.pcie.warm ∨ !isReady s ∨ s.pcie.speed = 0 ∨ !fnExists s fn then .next s
  else
    let s1 := modPcie (functionReset fn) s
    match fnCh s1 fn with
    | none => .next s1
    | some n =>
      .next (resetChamber n (modCh n (fun c =>
        cset 0x1204 6 { c with regs := Tab.drop (fun o => decide (0x1200 ≤ o ∧ o < 0x1300)) c.regs }) s1))

/-- Whether a global register keeps its value across a warm reset (R390; Table STR-15 keeps none of its own): the time
base (R31), RWA registers, registers of type RWS, suspect counters (R129), link (R305), ECC (R334), power (R369), module
(R392) and observation registers (R401). -/
def warmKeeps (off : Nat) : Bool :=
  decide ((0x100 ≤ off ∧ off < 0x110) ∨ off = 0x218 ∨ (0x800 ≤ off ∧ off < 0xD00) ∨ off = 0x100C ∨ off = 0x1010 ∨
    (0x1100 ≤ off ∧ off < 0x1700)) ||
  decide ((0x2000 ≤ off ∧ off < 0x2100) ∨ (0x3000 ≤ off ∧ off < 0x4000) ∨ (0x4000 ≤ off ∧ off < 0x4100) ∨
    (0x5000 ≤ off ∧ off < 0x5100))

/-- The global registers after a warm reset (R390): PROG of STR_STAT stays, PEER_NEW of a port clears, every other
register takes its reset value. -/
def warmRegs (g : Tab W32) : Tab W32 :=
  let kept := g.filter (fun e => warmKeeps e.1)
  let g1 := (List.range 24).foldl (fun a p =>
    Tab.set 0 (0x1104 + 0x40 * p) (Tab.get 0 (0x1104 + 0x40 * p) a &&& ~~~0x10#32) a) kept
  Tab.set 0 0x200 (Tab.get 0 0x200 g &&& 0xF000#32) (Tab.set 0 0x2104 8 (Tab.set 0 0x4104 6 g1))

/-- FATAL and FATAL_CODE clear unless a trip caused the fault (R390 step 3). -/
def clearFatal (s : State) : State :=
  let code := fld (gget 0x2000 s) 31 16
  if code = 0x100A ∨ code = 0x100B ∨ code = 0x100C then s else gset 0x2000 0 s

/-- MOD_RST_STAT after a warm reset (Table MOD-13). -/
def countWarm (s : State) : State :=
  gmod 0x4018 (fun w => setFld (setFld w 2 0 s.pcie.warmCause) 31 16 (min 0xFFFF (fld w 31 16 + 1))) s

/-- Whether no chamber is CLEARING (R390 step 1). -/
def noneClearing (s : State) : Bool := allCh.all (fun n => (chOf s n).st != .clearing)

/-- WARM_RESET_COMPLETE (R390 steps 2 to 4, R389). -/
def execWarmResetComplete (s : State) : Host.Outcome State Fault Refusal :=
  if s.pcie.warm ∧ noneClearing s then
    let s1 := clearFatal (undefineAll s)
    let s2 := reloadShape { s1 with g := warmRegs s1.g, dbg := [], hold := [], mbxCmd := none }
    let s3 := modPcie (fun q => { q with warm := false }) (countWarm (eventG 0x202 [] s2))
    .next (eventG 0x1102 [fld (gget 0x4018 s3) 2 0] s3)
  else .next s

/-! ## Link and configuration requests (R371 to R373, R391) -/

/-- Whether the rails carry the PCIe endpoint: from safe point U1 to the end of PD3 (R391). -/
def endpointUp (s : State) : Bool :=
  match s.power.phase with
  | .pu k => decide (2 ≤ k)
  | .ready => true
  | .pd k => decide (k ≤ 3)
  | _ => false

/-- PCIE_LINK_UP (R371, R391). -/
def execPcieLinkUp (speed : BitVec 3) (width : BitVec 5) (s : State) : Host.Outcome State Fault Refusal :=
  if !endpointUp s ∨ s.pcie.perst then .next s
  else
    let s1 := modPcie (fun q => { q with speed := speed.toNat, width := width.toNat }) s
    .next (if speed.toNat < 5 ∨ width.toNat < 16 then eventG 0x1104 [width.toNat, speed.toNat] s1 else s1)

/-- Whether a function presents a capability (Table MOD-1). -/
def presents (fn : Fn) (c : PcieCap) : Bool :=
  match c with
  | .pcie | .msix | .ari => true
  | .powerManagement | .aer | .sriov | .acs | .resizableBar | .serialNumber | .tag10 => fn == 0
  | .ats | .pasid | .pri | .ptm | .l1Substates | .clockPm => false

/-- What a configuration register reads as (Table MOD-1, R372, R373): a capability as 1 where it is presented, sizes in
their PCIe encodings (512 B is 2). -/
def configRead (s : State) (fn : Fn) (r : ConfigReg) : W32 :=
  let q := s.pcie
  match r with
  | .capability c => word (one (presents fn c))
  | .totalVfs => if fn = 0 then 32 else 0
  | .initialVfs => if fn = 0 then 32 else 0
  | .firstVfOffset => if fn = 0 then 1 else 0
  | .vfStride => if fn = 0 then 1 else 0
  | .maxPayloadSupported => 2
  | .maxReadRequest => word (Tab.get 2 fn.val q.readSize)
  | .vendorDevice => if fn = 0 then 0x00901D8C else 0x00911D8C
  | .classRevision => word (0x12000000 + fld (gget 0x4000 s) 19 16)
  | .serialLo => if fn = 0 then gget 0x4004 s else 0
  | .serialHi => if fn = 0 then gget 0x4008 s else 0
  | .vfEnable => word (one (fn == 0 && q.vfEnable))
  | .vfCount => if fn = 0 then word q.vfCount else 0
  | .busMaster => word (one (Tab.get false fn.val q.busMaster))
  | .relaxedOrdering => word (one (Tab.get false fn.val q.relaxed))
  | .memoryDecode => word (one (Tab.get false fn.val q.decode))
  | .bar2Size => if fn = 0 then word (q.bar2Log - 20) else 0
  | .msixFunctionMask => word (one (Tab.get false fn.val q.fnMask))
  | .msixMask v => word (one (Tab.get true (vecKey fn v.toNat) q.vecMask))
  | .powerState => if fn = 0 ∧ q.d3hot then 3 else 0

/-- A write of a configuration register. The BAR2 size takes the encodings of 1 to 64 GiB, and only before memory
decode is enabled (R373); VF Enable and NumVFs are the PF's (R372). -/
def configWrite (fn : Fn) (r : ConfigReg) (v : W32) (s : State) : State :=
  let b := bit v 0
  match r with
  | .vfEnable => if fn = 0 then modPcie (fun q => { q with vfEnable := b }) s else s
  | .vfCount => if fn = 0 ∧ !s.pcie.vfEnable ∧ v.toNat ≤ 32 then modPcie (fun q => { q with vfCount := v.toNat }) s else s
  | .busMaster => sendPending fn (modPcie (fun q => { q with busMaster := Tab.set false fn.val b q.busMaster }) s)
  | .maxReadRequest =>
    if v.toNat ≤ 5 then modPcie (fun q => { q with readSize := Tab.set 2 fn.val v.toNat q.readSize }) s else s
  | .relaxedOrdering => modPcie (fun q => { q with relaxed := Tab.set false fn.val b q.relaxed }) s
  | .memoryDecode => modPcie (fun q => { q with decode := Tab.set false fn.val b q.decode }) s
  | .bar2Size =>
    if fn = 0 ∧ Tab.get false 0 s.pcie.decode = false ∧ 10 ≤ v.toNat ∧ v.toNat ≤ 16 then
      modPcie (fun q => { q with bar2Log := v.toNat + 20 }) s
    else s
  | .msixFunctionMask => sendPending fn (modPcie (fun q => { q with fnMask := Tab.set false fn.val b q.fnMask }) s)
  | .msixMask i => sendPending fn (modPcie (fun q => { q with vecMask := Tab.set true (vecKey fn i.toNat) b q.vecMask }) s)
  | .powerState => if fn = 0 then modPcie (fun q => { q with d3hot := fld v 1 0 == 3 }) s else s
  | _ => s

/-- CONFIGURATION_REQUEST (R391): retry status until Ready and during a warm reset; a function that does not exist
answers with Unsupported Request. -/
def execConfigurationRequest (fn : Fn) (write : Bool) (reg : ConfigReg) (v : W32) (s : State) :
    Host.Outcome State Fault Refusal :=
  if s.pcie.speed = 0 then .next s
  else if !isReady s ∨ s.pcie.warm then .next (emit (.cfgRetry fn) s)
  else if !fnExists s fn then .next (emit (.cplUr fn) s)
  else if write then .next (emit (.cfg fn 0) (configWrite fn reg v s))
  else .next (emit (.cfg fn (configRead s fn reg)) s)

/-! ## Host reads (R375) -/

/-- HOST_COMPLETION (R375): data for the read with this tag, or the failure of its TRANSFER. -/
def execHostCompletion (tag : Nat) (ok : Bool) (data : Bytes) (s : State) : Host.Outcome State Fault Refusal :=
  match s.hostReads.find? (fun r => r.tag == tag) with
  | none => .next s
  | some r =>
    if ok then .next (settleAll r.ch (hostBytes r data s))
    else
      let s1 := drainHost { s with hostReads := s.hostReads.erase r }
      if (Tab.get {} r.stream (chOf s1 r.ch).streams).seq = r.seq then .next (dmaFail r.ch r.seq s1) else .next s1

/-- MOD_DMA_TMO in ns: 0 acts as 1 ms (Table MOD-13). -/
def dmaTimeout (s : State) : Nat := max 1 (fld (gget 0x4020 s) 15 0) * 1000000

/-- DMA_READ_TIMEOUT (R375): the read is issued again. -/
def execDmaReadTimeout (tag : Nat) (s : State) : Host.Outcome State Fault Refusal :=
  match s.hostReads.find? (fun r => r.tag == tag) with
  | none => .next s
  | some r =>
    if r.issued.toNat + dmaTimeout s ≤ now s then
      .next (emit (.hostRead r.fn r.tag r.addr r.len)
        { s with hostReads := s.hostReads.map (fun q => if q.tag = tag then { q with issued := s.time } else q) })
    else .next s

end Sys2Proof.Machine
end

