-- ==== Sys2Proof/Machine/Compare.lean ====
section
/-! DEFINITION. Compare.lean: the K steps of a pass of the matrix engine, with the row registers and the checksum row
that its lanes hold (R85 to R89, R94, R96, R119 to R121), the accumulator entries that they give, and which compares
of the two run-time checks fail for what the lanes and the wires delivered (R117 to R124, R128). -/
namespace Sys2Proof.Machine
open Sys2Proof

/-- The elements of a list with their indices. -/
def numbered {α : Type} (l : List α) : List (Nat × α) := List.zip (List.range l.length) l

/-- The elements of a row or a vector in the K step at `k0`: Kr of them, zeros beyond its end (R86). -/
def stepPart (kr k0 : Nat) (v : OpVec) : OpVec :=
  let p := (v.drop k0).take kr
  p ++ List.replicate (kr - p.length) (0, 127)

/-- An element as the residue checks see it: its integer, and its scale byte, 0 in a format without scales (R118). -/
def chkElt (fmt : Nat) (e : Elem) : ChkElt := (eltInt fmt e.1, if blockScaled fmt then e.2 else 0)

/-- A K step of a pass: the row registers of the unmasked lanes, the checksum lane's row (residues, or BF16 sums), and
the broadcast vectors in runs of up to 64 columns (R87, R119, R124). -/
structure PassStep where
  rows : List OpVec
  check : List Nat
  checkB : List Dy
  runs : List (List OpVec)
  deriving DecidableEq, Repr

/-- A pass of one core over its K steps: formats of the rows and of the vectors, group size. -/
structure Pass where
  fa : Nat
  fb : Nat
  g : Nat
  steps : List PassStep
  deriving DecidableEq, Repr

/-! ## Row registers and checksum row (R94, R96, R120) -/

/-- What the checks make of a row register, and of the elements' codes. -/
def chkRow (fmt : Nat) (r : OpVec) : List ChkElt := r.map (chkElt fmt)
/-- Element codes of a row or vector. -/
def codesOf (r : OpVec) : List Nat := r.map (·.1)

/-- Rows still to come for a lane: fills the front half of its queue, in K order (R94). -/
def fillLane (todo : List OpVec) (l : Lane) : Lane × List OpVec :=
  let k := 4 - l.front.length
  ({ l with front := l.front ++ todo.take k }, todo.drop k)

/-- A lane moves the head of its queue into its row register (R94). -/
def takeHead (l : Lane) : Lane :=
  match l.front with
  | r :: q => { l with row := r, front := q }
  | [] => l

/-- Every unmasked lane moves its queue head into its row register (R94), and the checksum lane forms its row afresh
(R120, R121). -/
def loadStep (fmt : Nat) (e : Engine) : Engine :=
  let lanes := e.lanes.map takeHead
  let kr := krOf fmt
  let rows := lanes.map (·.row)
  if fmt = 7 then
    { e with lanes := lanes, check := [], checkB := (List.range kr).map (checkRowB (rows.map codesOf)) }
  else
    { e with lanes := lanes, check := (List.range kr).map (checkRow (rows.map (chkRow fmt))), checkB := [] }

/-- A shift step (R96): each lane takes its left-hand neighbour's row register, lane 0 its queue head, the last lane's
row is discarded. The checksum row loses that row and gains the new one (R120); of BF16 it is formed afresh (R121). -/
def shiftStep (fmt : Nat) (e : Engine) : Engine :=
  match e.lanes with
  | [] => e
  | first :: rest =>
    let head := takeHead first
    let moved := List.zipWith (fun (l : Lane) r => { l with row := r }) rest ((first :: rest).map (·.row))
    let lanes := head :: moved
    let kr := krOf fmt
    if fmt = 7 then
      { e with lanes := lanes, checkB := (List.range kr).map (checkRowB (lanes.map (fun l => codesOf l.row))) }
    else
      let gone := chkRow fmt ((e.lanes.getLast?.map (·.row)).getD [])
      let new := chkRow fmt head.row
      { e with lanes := lanes, check := (List.range kr).map (fun k =>
          shiftRow (e.check.getD k 0) (gone.getD k (0, 0)) (new.getD k (0, 0))) }

/-- What the feeder brings for one K step: whether it is a shift step, the rows, the vectors in runs. -/
structure Feed where
  shift : Bool
  rows : List OpVec
  runs : List (List OpVec)
  deriving DecidableEq, Repr

/-- The rows that one lane still gets: of a shift step only lane 0 gets one. -/
def laneRows (fs : List Feed) (l : Nat) : List OpVec :=
  fs.filterMap (fun f => if f.shift && l != 0 then none else f.rows[l]?)

/-- Runs the K steps of a pass through the engine: queues are filled, rows move or shift, and each step is recorded
with what the lanes hold. -/
def runSteps (fmt : Nat) : List Feed → List (List OpVec) → Engine → List PassStep × Engine
  | [], _, e => ([], e)
  | f :: fs, todo, e =>
    let filled := List.zipWith fillLane todo e.lanes
    let e1 := { e with lanes := filled.map (·.1) }
    let e2 := if f.shift then shiftStep fmt e1 else loadStep fmt e1
    let st : PassStep := { rows := e2.lanes.map (·.row), check := e2.check, checkB := e2.checkB, runs := f.runs }
    let r := runSteps fmt fs (filled.map (·.2)) e2
    (st :: r.1, r.2)

/-- A pass over `lanes` unmasked lanes (R88). -/
def runPass (fa fb g lanes : Nat) (fs : List Feed) (e : Engine) : Pass × Engine :=
  let todo := (List.range lanes).map (laneRows fs)
  let have_ := e.lanes.take lanes ++ List.replicate (lanes - e.lanes.length) { row := [] }
  let r := runSteps fa fs todo { e with lanes := have_ }
  ({ fa := fa, fb := fb, g := g, steps := r.1 }, { r.2 with lanes := r.2.lanes ++ e.lanes.drop lanes })

/-! ## Accumulator entries (R87, R89) -/

/-- The values of a tile: one list over its columns per lane. -/
abbrev Vals := List (List W32)

/-- One K step: each lane enters the groups of its row with every broadcast vector, in increasing K; the values and
the saturations (R102). -/
def stepVals (accFmt : Nat) (p : Pass) (st : PassStep) (acc : Vals) : Vals × Nat :=
  let vecs := st.runs.flatten
  let r := List.zipWith (fun row lane =>
    List.zipWith (fun v x => enterAll accFmt p.fa p.fb (groupsIn p.g 0 (krOf p.fa) row v) x) vecs lane) st.rows acc
  (r.map (·.map (·.1)), (r.map (fun l => (l.map (·.2)).sum)).sum)

/-- All K steps of a pass, in increasing K (R89). -/
def passVals (accFmt : Nat) (p : Pass) (acc : Vals) : Vals × Nat :=
  p.steps.foldl (fun (a : Vals × Nat) st =>
    let r := stepVals accFmt p st a.1
    (r.1, a.2 + r.2)) (acc, 0)

/-! ## Compares (R117 to R124) -/

/-- Whether a BF16 step has a product that is infinite or NaN (R123). -/
def stepBad (rows : List OpVec) (v : OpVec) : Bool := stepSkipped (rows.map codesOf) (codesOf v) 0 16

/-- CHK_SKIPPED of a pass: lane compares and column compares that are on and that a product bars, a run once (R123,
R124; log entry 98). -/
def passSkips (laneOn colOn : Bool) (p : Pass) : Nat :=
  if p.fa ≠ 7 then 0
  else
    (p.steps.map (fun st => (st.runs.map (fun r =>
      let bad := r.map (stepBad st.rows)
      (if laneOn then bad.countP id else 0) + (if colOn && bad.any id then 1 else 0))).sum)).sum

/-- A broadcast vector as the wires delivered it. -/
def heard (f : CoreFault) (j : Nat) (v : OpVec) : OpVec :=
  (numbered v).map (fun e =>
    match f.wires.find? (fun x => x.col.val == j && x.k.val == e.1) with
    | some x => (x.code.toNat, e.2.2)
    | none => e.2)

/-- What a lane's error adds to a window content. -/
def windowErr (f : CoreFault) (j l g : Nat) : Int :=
  ((f.windows.filter (fun x => x.col.val == j && x.lane.val == l && x.group.val == g)).map (·.delta)).sum

/-- What the checksum lane's sum is off by in the step of a column. -/
def sumErr (f : CoreFault) (j : Nat) : Dy :=
  sumD ((f.sums.filter (fun x => x.col.val == j)).map (fun x => (x.num, x.exp)))

/-- The sum as a residue. -/
def residueOf (d : Dy) : Nat := if 0 ≤ d.2 then rot d.1 d.2.toNat else rot d.1 (64 - (-d.2).toNat % 64)

/-- The window content that lane `l` delivers for group `g` of column `j` (R73, R119). -/
def windowGot (p : Pass) (f : CoreFault) (rows : List OpVec) (v : OpVec) (j l g : Nat) : Int :=
  windowSum p.fa p.fb (((rows.getD l []).drop (g * p.g)).take p.g) ((v.drop (g * p.g)).take p.g) + windowErr f j l g

/-- The step value G(l) that lane `l` delivers for column `j` (R121): the window contents without sticky. -/
def valueGot (p : Pass) (f : CoreFault) (row v : OpVec) (j l : Nat) : Dy :=
  sumD ((List.range (krOf p.fa / p.g)).map (fun g =>
    match groupBf16 ((row.drop (g * p.g)).take p.g) ((v.drop (g * p.g)).take p.g) with
    | .fin w q _ => (w + windowErr f j l g, q)
    | _ => (0, 0)))

/-- Whether the lane compare of column `j` passes, or is not made (R119, R121, R123). -/
def laneOk (p : Pass) (st : PassStep) (f : CoreFault) (j : Nat) (v : OpVec) : Bool :=
  let b := heard f j v
  let kr := krOf p.fa
  if p.fa = 7 then
    stepBad st.rows b ||
    lanePassB (st.rows.map codesOf) st.checkB (codesOf b) p.g kr ((numbered st.rows).map (fun r => valueGot p f r.2 b j r.1))
      (sumErr f j)
  else
    lanePass (st.rows.map (chkRow p.fa)) st.check (chkRow p.fb b) p.g kr (windowGot p f st.rows b j) (residueOf (sumErr f j))

/-- Whether the column compare of lane `l` passes for a run, or is not made (R123, R124). -/
def colOk (p : Pass) (st : PassStep) (f : CoreFault) (run : List OpVec) (l : Nat) : Bool :=
  let row := st.rows.getD l []
  let kr := krOf p.fa
  if p.fa = 7 then
    run.any (stepBad st.rows) ||
    colPassB (codesOf row) (run.map codesOf) p.g kr ((numbered run).map (fun c => valueGot p f row (heard f c.1 c.2) c.1 l))
  else
    colPass (chkRow p.fa row) (run.map (chkRow p.fb)) p.g kr (fun j g =>
      windowGot p f st.rows (heard f j (run.getD j [])) j l g)

/-- What one core's compares deliver for one run up to its stop (R128, R129): whether the lane compare of some column
failed, the lanes whose column compare failed, whether the column check of the run was made. -/
structure CoreFail where
  core : Nat
  lane : Bool
  cols : List Nat
  colOn : Bool
  time : W64
  deriving DecidableEq, Repr

/-- The compares of the run in which a core's fault lies, with the checks that are on. -/
def runVerdict (laneOn colOn : Bool) (passes : List Pass) (f : CoreFault) : CoreFail :=
  let col := colOn && f.checked
  let none_ : CoreFail := { core := f.core.val, lane := false, cols := [], colOn := col, time := f.time }
  match passes[f.pass]? with
  | none => none_
  | some p =>
    match p.steps[f.step]? with
    | none => none_
    | some st =>
      match st.runs[f.run]? with
      | none => none_
      | some run =>
        { none_ with
          lane := laneOn && (numbered run).any (fun c => !laneOk p st f c.1 c.2),
          cols := if col then (List.range st.rows.length).filter (fun l => !colOk p st f run l) else [] }

end Sys2Proof.Machine
end

