-- ==== Sys2Proof/Machine/Feeder.lean ====
section
/-! DEFINITION. Feeder.lean: what the feeders of the matrix engines read: stationary rows, broadcast vectors, the
transposing fetch (R86, R97, R111, R113, R186), tiles and work units (R90, R92), and operand staging (R94, R95). -/
namespace Sys2Proof.Machine
open Sys2Proof

/-- Runs an access for each element of a list and collects the results. -/
def listRes {α β : Type} (f : α → State → Res β) : List α → State → Res (List β)
  | [], s => (.ok [], s)
  | a :: l, s => andThen (f a s) (fun b t => andThen (listRes f l t) (fun bs u => (.ok (b :: bs), u)))

/-- How operand bytes are read: descriptor space, address, length. -/
abbrev Loader := Nat → Nat → Nat → State → Res Bytes

/-- The feeder of a core as an agent (Table ECC-8). -/
def feeder (core : Nat) : Agent := { code := 1, core := some core }

/-- A read for an operation by the feeder of a core. -/
def feedLoad (n core : Nat) : Loader := fun space addr len => dLoad n (feeder core) space addr len

/-! ## The feeder staging region (R167; the layout is log entry 99) -/

/-- Where rows of a transposed operand in bulk are copied (R186). -/
def transBase : Nat := 0x20000

/-- Where broadcast vectors are staged (R95), and how many bytes there are. -/
def vecBase : Nat := 0x28000
/-- Bytes for staged broadcast vectors. -/
def vecRoom : Nat := 0x8000

/-- A range of a core store as the feeder or the engine reads it: POISON 0x0907 at its first byte of bad parity
(R172). -/
def coreLoad (core off n : Nat) (s : State) : Res Bytes :=
  match (List.range n).find? (fun i => Tab.get false (coreKey core off + i) s.coreBad) with
  | some i => (.error { code := 0x907, addr := off + i }, s)
  | none => (.ok (coreRead core off n s), s)

/-- Loads `n` elements and their scale bytes (R67, R68). -/
def loadVec (ld : Loader) (space fmt n addr scaleAddr : Nat) (s : State) : Res OpVec :=
  andThen (ld space addr (eltBytes fmt n) s) (fun bs t =>
    if blockScaled fmt then
      andThen (ld space scaleAddr (ceilDiv n 32) t) (fun sc u => (.ok (unpack fmt n bs sc), u))
    else (.ok (unpack fmt n bs []), t))

/-! ## MATMUL operands (R111, R186, R187) -/

/-- An operand of a MATMUL: format, space, element and scale address, stride, rows or columns, whether it is stored
transposed. -/
structure Operand where
  fmt : Nat
  space : Nat
  addr : Nat
  scale : Nat
  ld : Nat
  count : Nat
  trans : Bool
  deriving DecidableEq, Repr

/-- A (`true`) or B of a MATMUL. -/
def operandOf (o : Op) (isA : Bool) : Operand :=
  let w := control o
  if isA then
    { fmt := df o 0x58 1, space := fld w 11 10, addr := df o 0x10 8, scale := df o 0x18 8, ld := df o 0x4C 4,
      count := df o 0x40 4, trans := bit w 8 }
  else
    { fmt := df o 0x59 1, space := fld w 13 12, addr := df o 0x20 8, scale := df o 0x28 8, ld := df o 0x50 4,
      count := df o 0x44 4, trans := bit w 9 }

/-- Elements [k0, k0 + n) of row or column `i` of an operand whose rows have `k` elements. -/
def plainPart (ld : Loader) (x : Operand) (k k0 n i : Nat) (s : State) : Res OpVec :=
  loadVec ld x.space x.fmt n (x.addr + i * x.ld + k0 * eltBits x.fmt / 8) (x.scale + i * ceilDiv k 32 + k0 / 32) s

/-- One stored row of a transposed tile: 32 elements from `i0` on at K index `k`. From bulk it is copied into the
staging region of the core, to row `r` of the tile's copy, and read from there (R186). -/
def transRow (ld : Loader) (core : Nat) (x : Operand) (i0 k r : Nat) (s : State) : Res Bytes :=
  let len := 4 * eltBits x.fmt
  andThen (ld x.space (x.addr + k * x.ld + i0 * eltBits x.fmt / 8) len s) (fun bs t =>
    if x.space = 1 then
      let at_ := transBase + r * len
      coreLoad core at_ len (coreWrite core at_ bs t)
    else (.ok bs, t))

/-- The transposing fetch (R186): elements [k0, k0 + n) of the rows or columns `is`, by tiles of 32. The scale byte of
block (k / 32, i) lies at index (k / 32) × count + i. -/
def transParts (ld : Loader) (core : Nat) (x : Operand) (k0 n : Nat) (is : List Nat) (s : State) : Res (List OpVec) :=
  let blocks := (is.map (· / 32)).eraseDups
  let tile := fun (b : Nat × Nat) (t : State) =>
    andThen (listRes (fun i u => transRow ld core x (b.2 * 32) (k0 + i) (b.1 * n + i) u) (List.range n) t) (fun rows u =>
      andThen (if blockScaled x.fmt then
          listRes (fun i v => ld x.space (x.scale + (k0 / 32 + i) * x.count + b.2 * 32) 32 v) (List.range (ceilDiv n 32)) u
        else (.ok [], u)) (fun scs v => (.ok (b.2, rows, scs), v)))
  andThen (listRes tile (numbered blocks) s) (fun ts u =>
    (.ok (is.map (fun i =>
      match ts.find? (fun t => t.1 == i / 32) with
      | some t => (List.range n).map (fun j =>
          (eltAt x.fmt (t.2.1.getD j []) (i % 32),
           if blockScaled x.fmt then ((t.2.2.getD (j / 32) []).getD (i % 32) 0).toNat else 127))
      | none => [])), u))

/-- Elements [k0, k0 + n) of the rows or columns `is` of an operand. -/
def matParts (ld : Loader) (core : Nat) (x : Operand) (k k0 n : Nat) (is : List Nat) (s : State) : Res (List OpVec) :=
  if x.trans then transParts ld core x k0 n is s else listRes (plainPart ld x k k0 n) is s

/-- Column `i`, rows [m0, m0 + n), of an operand of a diagonal operation: blocks along M (R109). -/
def diagPart (ld : Loader) (x : Operand) (m m0 n i : Nat) (s : State) : Res OpVec :=
  loadVec ld x.space x.fmt n (x.addr + i * x.ld + m0 * eltBits x.fmt / 8) (x.scale + i * (m / 32) + m0 / 32) s

/-! ## CONV operands (R97, R113) -/

/-- Kernel row, kernel column and channel chunk of a K step of a CONV (R97). -/
def convPlace (o : Op) (k0 : Nat) : Nat × Nat × Nat :=
  let q := k0 / krOf (df o 0x58 1)
  let sk := df o 0x4D 1
  (q / sk % df o 0x4C 1, sk - 1 - q % sk, q / (sk * df o 0x4C 1))

/-- The stationary row of output position `pos` at a K step: the channels of a chunk at an input position, zeros
outside the image and beyond C_IN (R97). -/
def convPart (ld : Loader) (o : Op) (k0 pos : Nat) (s : State) : Res OpVec :=
  let fmt := df o 0x58 1
  let kr := krOf fmt
  let h := df o 0x40 2
  let w := df o 0x42 2
  let cin := df o 0x44 2
  let oh := df o 0x48 2
  let ow := df o 0x4A 2
  let p := convPlace o k0
  let y : Int := ((pos / ow % oh * (df o 0x4E 1 / 16) + p.1 : Nat) : Int) - (df o 0x4F 1 / 16 : Nat)
  let x : Int := ((pos % ow * (df o 0x4E 1 % 16) + p.2.1 : Nat) : Int) - (df o 0x4F 1 % 16 : Nat)
  if 0 ≤ y ∧ y < (h : Int) ∧ 0 ≤ x ∧ x < (w : Int) then
    let idx := (pos / (oh * ow) * h + y.toNat) * w + x.toNat
    let c0 := p.2.2 * kr
    loadVec ld (fld (control o) 11 10) fmt (min kr (cin - c0)) (df o 0x10 8 + (idx * cin + c0) * eltBits fmt / 8)
      (df o 0x18 8 + idx * (cin / 32) + c0 / 32) s
  else (.ok [], s)

/-- The weights of output channel `i` at a K step. -/
def weightPart (ld : Loader) (o : Op) (k0 n i : Nat) (s : State) : Res OpVec :=
  let fmt := df o 0x59 1
  let k := (matDims o).2.2
  loadVec ld (fld (control o) 13 12) fmt n (df o 0x20 8 + (i * k + k0) * eltBits fmt / 8)
    (df o 0x28 8 + i * (k / 32) + k0 / 32) s

/-! ## One K step -/

/-- Kr of an operation: that of its stationary format. -/
def opKr (o : Op) : Nat := krOf (df o 0x58 1)

/-- The stationary rows `is` at the K step `k0` (R86). -/
def rowsAt (ld : Loader) (core : Nat) (o : Op) (k0 : Nat) (is : List Nat) (s : State) : Res (List OpVec) :=
  let k := (matDims o).2.2
  andThen (if opType o = 2 then listRes (convPart ld o k0) is s
    else matParts ld core (operandOf o true) k k0 (min (opKr o) (k - k0)) is s) (fun vs t =>
    (.ok (vs.map (stepPart (opKr o) 0)), t))

/-- The broadcast vectors of the columns `js` at the K step `k0` (R87). -/
def colsAt (ld : Loader) (core : Nat) (o : Op) (k0 : Nat) (js : List Nat) (s : State) : Res (List OpVec) :=
  let k := (matDims o).2.2
  let n := min (opKr o) (k - k0)
  andThen (if opType o = 2 then listRes (weightPart ld o k0 n) js s
    else matParts ld core (operandOf o false) k k0 n js s) (fun vs t =>
    (.ok (vs.map (stepPart (opKr o) 0)), t))

/-- Whether a K step of a unit that begins at `start` is a shift step (R97): in a CONV of width stride 1, a step that
begins no kernel row and no partition. -/
def isShift (o : Op) (start k0 : Nat) : Bool :=
  opType o == 2 && df o 0x4E 1 % 16 == 1 && k0 != start && k0 / opKr o % df o 0x4D 1 != 0

/-! ## Tiles and work units (R90, R92, R113) -/

/-- A tile: its number, its rows or positions, its columns. -/
structure Tile where
  t : Nat
  rows : List Nat
  cols : List Nat
  deriving DecidableEq, Repr

/-- The columns of column tile `j`. -/
def tileCols (n j : Nat) : List Nat := (List.range (min 256 (n - 256 * j))).map (fun i => 256 * j + i)

/-- The tiles in increasing t (R90, R113). -/
def tilesOf (o : Op) : List Tile :=
  let n := (matDims o).2.1
  let nj := ceilDiv n 256
  (numbered (rowTiles o)).flatMap (fun (p : Nat × List Nat) =>
    (List.range nj).map (fun j => { t := p.1 * nj + j, rows := p.2, cols := tileCols n j }))

/-- The K range of partition `p` (R90). -/
def partRange (o : Op) (pn p : Nat) : Nat × Nat :=
  let k := (matDims o).2.2
  let kp := partLen k pn
  (p * kp, min ((p + 1) * kp) k)

/-- The K indices at which the steps of a range begin. -/
def stepsIn (kr : Nat) (r : Nat × Nat) : List Nat := (List.range (ceilDiv (r.2 - r.1) kr)).map (fun i => r.1 + i * kr)

/-! ## Staging (R94, R95) -/

/-- A core's matrix engine. -/
def engineOf (s : State) (core : Nat) : Engine := Tab.get {} core s.engines

/-- Puts a core's matrix engine. -/
def setEngine (core : Nat) (e : Engine) (s : State) : State := { s with engines := Tab.set {} core e s.engines }

/-- Bytes of a broadcast vector of Kr elements with its scale bytes (Table ENG-2). -/
def vecBytes (fmt kr : Nat) : Nat := eltBytes fmt kr + (if blockScaled fmt then ceilDiv kr 32 else 0)

/-- A broadcast vector as it lies in the staging region. -/
def vecStored (fmt : Nat) (v : OpVec) : Bytes :=
  packElts fmt (codesOf v) ++
  (if blockScaled fmt then (List.range (ceilDiv v.length 32)).map (fun i => BitVec.ofNat 8 (v.getD (32 * i) (0, 127)).2)
   else [])

/-- Staged vector `i` of a core, as the feeder reads it from the core store. -/
def stagedVec (core fmt kr i : Nat) (s : State) : Res OpVec :=
  let len := vecBytes fmt kr
  andThen (coreLoad core (vecBase + i * len) len s) (fun bs t =>
    (.ok (unpack fmt kr bs (bs.drop (eltBytes fmt kr))), t))

/-- The halves of every lane's queue change roles when a staged operation starts (R95); of another operation nothing
is staged. -/
def swapHalves (seq : W32) (e : Engine) : Engine :=
  if e.staged = some seq then { e with lanes := e.lanes.map (fun l => { l with front := l.back, back := [] }) } else e

/-- Bytes that a staging read finds (R95): of each code word its old contents, as `s0` has them, or its new ones. -/
def mixWords (word addr : Nat) (old new : Bytes) (s : State) : Bytes × State :=
  (granules word addr new.length).foldl (fun (r : Bytes × State) g =>
    let lo := max addr g - addr
    let hi := min (addr + new.length) (g + word) - addr
    let f := fresh r.2
    (r.1 ++ slice (if f.1.getLsbD 0 then old else new) lo (hi - lo), f.2)) ([], s)

/-- A staging read, not ordered against what was written since `s0` (R95). -/
def stageLoad (n core : Nat) (s0 : State) : Loader := fun space addr len s =>
  andThen (feedLoad n core space addr len s) (fun new t =>
    match (feedLoad n core space addr len s0).1 with
    | .ok old => let r := mixWords (wordOf space) addr old new t
                 (.ok r.1, r.2)
    | .error _ => (.ok new, t))

/-- The operation whose operands the feeders of alcove `k` may stage (R95): the next MATMUL or CONV in STAGED, not
diagonal, and with DEP = 1 only once no matrix-class operation of the alcove executes or retires. -/
def stageNextOp (c : Chamber) (k : Nat) : Option Op :=
  match (match nextMatrix c k with | some o => some o | none => bankHead c k) with
  | some o =>
    if (opType o == 2 || (opType o == 1 && df o 0x5B 1 == 0)) &&
        (!bit (control o) 30 || !(c.ops.any (fun q => q.list == k && isMatrix (opType q) && entered q)))
    then some o else none
  | none => none

/-- Adds staged rows to the back half of a lane. -/
def addBack (rows : List OpVec) (l : Lane) : Lane := { l with back := l.back ++ rows }

/-- The feeder of one core stages more of its first unit: a free number of K steps' rows into the back halves, up to
4, and a free number of broadcast vectors into the staging region (R94, R95; log entry 99). A read that faults stages
nothing; the operation makes it again. -/
def stageCore (n : Nat) (o : Op) (pn : Nat) (s0 : State) (tl : Tile) (p core : Nat) (s : State) : State :=
  let e := engineOf s core
  let own := e.staged == some o.seq
  if e.staged.isSome && !own then s
  else
    let f := fresh s
    let g := fresh f.2
    let ld := stageLoad n core s0
    let kr := opKr o
    let fb := df o 0x59 1
    let range := partRange o pn p
    let steps := stepsIn kr range
    let m0 := if own then e.steps else 0
    let v0 := if own then e.vecs else 0
    let m := min (min 4 steps.length) (m0 + f.1.toNat % 5)
    let v := min (vecRoom / vecBytes fb kr) (min (steps.length * tl.cols.length) (v0 + g.1.toNat % (vecRoom + 1)))
    let rows := fun (k0 : Nat) (t : State) =>
      andThen (rowsAt ld core o k0 (if isShift o range.1 k0 then tl.rows.take 1 else tl.rows) t) (fun rs u =>
        (.ok ({ shift := isShift o range.1 k0, rows := rs, runs := [] } : Feed), u))
    let vec := fun (i : Nat) (t : State) =>
      andThen (colsAt ld core o (steps.getD (i / tl.cols.length) 0) [tl.cols.getD (i % tl.cols.length) 0] t) (fun vs u =>
        (.ok (vs.headD []), u))
    match andThen (listRes rows ((steps.take m).drop m0) g.2) (fun fs t =>
        andThen (listRes vec ((List.range v).drop v0) t) (fun vs u => (.ok (fs, vs), u))) with
    | (.error _, _) => s
    | (.ok (fs, vs), t) =>
      let lanes := e.lanes ++ List.replicate (tl.rows.length - e.lanes.length) { row := [] }
      let e1 : Engine :=
        { e with
          lanes := (numbered lanes).map (fun l => addBack (laneRows fs l.1) l.2)
          staged := some o.seq
          steps := m
          vecs := v }
      forAll (numbered vs) (fun x u => coreWrite core (vecBase + (v0 + x.1) * vecBytes fb kr) (vecStored fb x.2) u)
        (setEngine core e1 t)

/-- The feeders of alcove `k` may stage the next matrix operation while an operation executes there (R95), reading
memory as it is or as `s0` had it. -/
def stageAhead (n k : Nat) (s0 s : State) : State :=
  let c := chOf s n
  match stageNextOp c k with
  | none => s
  | some o =>
    let pn := opP c o
    let tiles := tilesOf o
    forAll (numbered (opCores c k)) (fun x t =>
      match tiles[x.1 / pn]? with
      | some tl => stageCore n o pn s0 tl (x.1 % pn) x.2 t
      | none => t) s

end Sys2Proof.Machine
end

