-- ==== Sys2Proof/Machine/Matrix.lean ====
section
/-! DEFINITION. Matrix.lean: MATMUL and CONV (R85 to R115): initial values, work units and their combine, the adapter
pass, the output, held tile sets and chains. -/
namespace Sys2Proof.Machine
open Sys2Proof

/-! ## Output runs -/

/-- Where one run of output elements goes: offset from C in bytes, linear index, index of its first
scale byte, values (R104, R111, R113). -/
structure OutRun where
  off : Nat
  i0 : Nat
  scale : Nat
  vals : List W32
  deriving DecidableEq, Repr

/-- The runs of a tile: columns of a MATMUL, positions of a CONV. -/
def runsOf (o : Op) (bits : Nat) (tl : Tile) (v : Vals) : List OutRun :=
  if opType o = 2 then
    let co := df o 0x46 2
    let n0 := tl.cols.headD 0
    (List.zip tl.rows v).map (fun (p : Nat × List W32) =>
      { off := (p.1 * co + n0) * bits / 8, i0 := p.1 * co + n0, scale := p.1 * (co / 32) + n0 / 32, vals := p.2 })
  else
    let m := df o 0x40 4
    let m0 := tl.rows.headD 0
    (List.zip (List.range tl.cols.length) tl.cols).map (fun (p : Nat × Nat) =>
      { off := p.2 * df o 0x54 4 + m0 * bits / 8, i0 := p.2 * m + m0, scale := p.2 * (m / 32) + m0 / 32,
        vals := v.map (fun lane => lane.getD p.1 0) })

/-! ## Initial values (R100) -/

/-- Reads a tile as it stands in a core's accumulators (R98), those entries only that the tile has (R88, R172). -/
def heldVals (core : Nat) (tl : Tile) (s : State) : Res Vals :=
  listRes (fun l t =>
    andThen (coreLoad core (l * 1024) (4 * tl.cols.length) t) (fun bs u =>
      (.ok ((List.range tl.cols.length).map (fun j => BitVec.ofNat 32 (at_ bs (4 * j) 4))), u)))
    (List.range tl.rows.length) s

/-- A tile of zeros. -/
def zeroVals (rows cols : Nat) : Vals := List.replicate rows (List.replicate cols 0)

/-- Reads the initial values of a tile from C (R100). -/
def loadVals (n core : Nat) (o : Op) (tl : Tile) (s : State) : Res Vals :=
  let runs := runsOf o 32 tl (zeroVals tl.rows.length tl.cols.length)
  andThen (listRes (fun (r : OutRun) t =>
      feedLoad n core (fld (control o) 15 14) (df o 0x30 8 + r.off) (4 * r.vals.length) t) runs s) (fun bss t =>
    let at4 := fun (bs : Bytes) (i : Nat) => BitVec.ofNat 32 (at_ bs (4 * i) 4)
    (.ok ((List.range tl.rows.length).map (fun l =>
      (List.range tl.cols.length).map (fun j =>
        if opType o = 2 then at4 (bss.getD l []) j else at4 (bss.getD j []) l))), t))

/-- The initial values of a tile for partition 0 (R100, R249): the tile as it stands for KEEP and for a later
link of a chain. -/
def initVals (n : Nat) (o : Op) (linked : Bool) (core : Nat) (tl : Tile) (s : State) : Res Vals :=
  if linked || accIn o == 2 then heldVals core tl s
  else if accIn o = 1 then loadVals n core o tl s
  else (.ok (zeroVals tl.rows.length tl.cols.length), s)

/-! ## Work units (R87 to R92) -/

/-- What a work unit, or an adapter pass, gives: values, saturations, and the passes that the checks see. -/
structure UnitSums where
  vals : Vals
  sat : Nat
  passes : List Pass
  deriving DecidableEq, Repr

/-- Counts a pass in its core's cluster bank: broadcast steps, shift steps, check steps (Table OBS-2, Table CHK-2). -/
def countPass (core : Nat) (colOn : Bool) (fs : List Feed) (s : State) : State :=
  let cl := core / 16
  bump cl 1 ((fs.map (fun f => (f.runs.map (·.length)).sum)).sum)
    (bump cl 4 (fs.countP (·.shift)) (bump cl 5 (if colOn then (fs.map (·.runs.length)).sum else 0) s))

/-- The feeds of a unit's K steps: the rows and vectors that are not staged come from memory, the staged vectors from
the core store (R94, R95). -/
def unitFeeds (n core : Nat) (o : Op) (tl : Tile) (range : Nat × Nat) (s : State) : Res (List Feed) :=
  let e := engineOf s core
  let own := e.staged == some o.seq
  let ld := feedLoad n core
  let nc := tl.cols.length
  listRes (fun (x : Nat × Nat) t =>
    let sh := isShift o range.1 x.2
    let have_ := if own then min nc (e.vecs - x.1 * nc) else 0
    andThen (if own && decide (x.1 < e.steps) then (.ok [], t)
      else rowsAt ld core o x.2 (if sh then tl.rows.take 1 else tl.rows) t) (fun rs u =>
    andThen (listRes (fun j v => stagedVec core (df o 0x59 1) (opKr o) (x.1 * nc + j) v) (List.range have_) u) (fun vs v =>
    andThen (colsAt ld core o x.2 (tl.cols.drop have_) v) (fun ws w =>
      (.ok ({ shift := sh, rows := rs, runs := chunks 64 4 (vs ++ ws) } : Feed), w)))))
    (numbered (stepsIn (opKr o) range)) s

/-- One work unit (R92) from its initial values. -/
def unitRun (n core : Nat) (o : Op) (tl : Tile) (range : Nat × Nat) (init : Vals) (s : State) : Res UnitSums :=
  andThen (unitFeeds n core o tl range s) (fun fs t =>
    let e := engineOf t core
    let r := runPass (df o 0x58 1) (df o 0x59 1) (groupSize o) tl.rows.length fs e
    let v := passVals ((opAcc o).getD 8) r.1 init
    let e1 := if e.staged = some o.seq then { r.2 with staged := none, steps := 0, vecs := 0 } else r.2
    (.ok { vals := v.1, sat := v.2, passes := [r.1] }, countPass core (!o.colOff) fs (setEngine core e1 t)))

/-- A tile of a diagonal operation (R109): one exact product for each entry. The checks do not cover it (R117). -/
def diagRun (n core : Nat) (o : Op) (tl : Tile) (init : Vals) (s : State) : Res UnitSums :=
  let ld := feedLoad n core
  let part := fun (isA : Bool) => diagPart ld (operandOf o isA) (df o 0x40 4) (tl.rows.headD 0) tl.rows.length
  andThen (listRes (part true) tl.cols s) (fun xs t =>
  andThen (listRes (part false) tl.cols t) (fun ys u =>
    let es := (numbered init).map (fun r => (numbered r.2).map (fun e =>
      diagVal ((opAcc o).getD 8) (df o 0x58 1) (df o 0x59 1) ((xs.getD e.1 []).getD r.1 (0, 127))
        ((ys.getD e.1 []).getD r.1 (0, 127)) e.2))
    (.ok { vals := es.map (·.map (·.1)), sat := (es.map (fun r => (r.map (·.2)).sum)).sum, passes := [] },
      bump (core / 16) 1 tl.cols.length u)))

/-- The combine of two partitions, entry by entry (R92). -/
def combineVals (accFmt : Nat) (a b : Vals) : Vals × Nat :=
  let r := List.zipWith (List.zipWith (combineAcc accFmt)) a b
  (r.map (·.map (·.1)), (r.map (fun l => l.countP (·.2))).sum)

/-- The combine of all partitions of a tile, in increasing p (R92), with their saturations. -/
def combineAll (accFmt : Nat) : List UnitSums → Vals × Nat
  | [] => ([], 0)
  | a :: l => l.foldl (fun (r : Vals × Nat) b =>
      let x := combineVals accFmt r.1 b.vals
      (x.1, r.2 + b.sat + x.2)) (a.vals, a.sat)

/-! ## Adapters (R46, R106 to R108) -/

/-- The adapter of one column: its index, FORMAT, RANK, A_ADDR, B_ADDR, SCALE (R46). -/
structure Adapter where
  idx : Nat
  fmt : Nat
  rank : Nat
  a : Nat
  b : Nat
  scale : W32
  deriving DecidableEq, Repr

/-- Rows `is` of an adapter operand of `n` rows of `len` elements: each row padded to a multiple of 64 B, scale bytes
from the next 64 B boundary after the last row (R107). -/
def adapterRows (ld : Loader) (fmt n len addr : Nat) (is : List Nat) (s : State) : Res (List OpVec) :=
  let stride := ceilDiv (eltBytes fmt len) 64 * 64
  let scales := ceilDiv (addr + n * stride) 64 * 64
  listRes (fun i t => loadVec ld 1 fmt len (addr + i * stride) (scales + i * ceilDiv len 32) t) is s

/-- The adapter of broadcast column `j`: none, an adapter, or the index at fault (R106). -/
def adapterOf (n : Nat) (o : Op) (j : Nat) (s : State) : Res (Except Nat (Option Adapter)) :=
  let c := chOf s n
  andThen (bulkLoad n (agent 1) (df o 0x78 8 + 2 * j) 2 false s) (fun ib t =>
    let idx := leNat ib
    if idx = 0xFFFF then (.ok (.ok none), t)
    else if c.adpCap * 256 ≤ idx then (.ok (.error idx), t)
    else
      andThen (bulkLoad n (agent 1) (cpair 0x18 c + 32 * idx) 32 false t) (fun e u =>
        let rank := at_ e 16 1
        let fmt := at_ e 17 1
        if rank = 0 then (.ok (.ok none), u)
        else if 64 < rank ∨ !(fmt == 7 || fmt == 3 || fmt == 4) ∨ (pairAcc fmt (df o 0x59 1)).isNone then
          (.ok (.error idx), u)
        else
          (.ok (.ok (some { idx := idx, fmt := fmt, rank := rank, a := at_ e 0 8, b := at_ e 8 8,
                            scale := BitVec.ofNat 32 (at_ e 20 4) })), u)))

/-- The maximal runs of columns of a tile that share one adapter (R108), with their places in the tile. -/
def adapterRuns (ads : List (Option Adapter)) : List (Adapter × List Nat) :=
  (numbered ads).foldl (fun l e =>
    match e.2 with
    | none => l
    | some ad =>
      match l.getLast? with
      | some (b, js) => if b = ad ∧ js.getLast? = some (e.1 - 1) then l.dropLast ++ [(b, js ++ [e.1])] else l ++ [(ad, [e.1])]
      | none => l ++ [(ad, [e.1])]) []

/-- Vectors of the columns `js` of a tile, cut where a run of the column check ends (R124). -/
def cutRuns (js : List Nat) (vs : List OpVec) : List (List OpVec) :=
  ((List.range 4).map (fun q => ((List.zip js vs).filter (fun e => e.1 / 64 == q)).map (·.2))).filter (fun r => !r.isEmpty)

/-- The whole broadcast vectors of the columns `js` of an operation. -/
def wholeCols (n core : Nat) (o : Op) (js : List Nat) (s : State) : Res (List OpVec) :=
  let k := (matDims o).2.2
  andThen (listRes (fun k0 t => colsAt (feedLoad n core) core o k0 js t) (stepsIn (opKr o) (0, k)) s) (fun ps t =>
    (.ok ((List.range js.length).map (fun i => (ps.flatMap (fun p => p.getD i [])).take k)), t))

/-- h′ of a column, converted to FORMAT, from its h, with its saturations (R108 steps 2 and 3). -/
def adapterMid (ad : Adapter) (hs : List W32) : OpVec × Nat :=
  let h := hs.map (mulF ad.scale) ++ List.replicate (64 - hs.length) (mulF ad.scale 0)
  match eltOf ad.fmt with
  | some f =>
    let q0 := quantBlock f (h.take 32) (List.replicate 32 .rne)
    let q1 := quantBlock f (h.drop 32) (List.replicate 32 .rne)
    (q0.codes.map (fun c => (c, q0.scale)) ++ q1.codes.map (fun c => (c, q1.scale)), q0.sat + q1.sat)
  | none =>
    let cs := h.map (convScalar false 7 0 .rne)
    (cs.map (fun c => (c.1, 127)), (cs.map (·.2.1)).sum)

/-- Feeds of full loads over a K range (R108). -/
def plainFeeds (kr k : Nat) (rows : List OpVec) (js : List Nat) (vs : List OpVec) : List Feed :=
  (stepsIn kr (0, k)).map (fun k0 =>
    { shift := false, rows := rows.map (stepPart kr k0), runs := cutRuns js (vs.map (stepPart kr k0)) })

/-- The adapter pass of one run of columns (R108): step 1 over the rows of A, steps 2 and 3 for each column, step 4 over
the rows of B. -/
def adapterRun (n core : Nat) (o : Op) (tl : Tile) (r : Adapter × List Nat) (a : UnitSums) (s : State) : Res UnitSums :=
  let ad := r.1
  let ld := feedLoad n core
  let kr := krOf ad.fmt
  let k := df o 0x48 4
  let g := groupSize o
  andThen (wholeCols n core o (r.2.map (fun j => tl.cols.getD j 0)) s) (fun xs t =>
  andThen (adapterRows ld ad.fmt ad.rank k ad.a (List.range ad.rank) t) (fun as u =>
  andThen (adapterRows ld ad.fmt (df o 0x40 4) 64 ad.b tl.rows u) (fun bs v =>
    let f1 := plainFeeds kr k as r.2 xs
    let p1 := runPass ad.fmt (df o 0x59 1) g ad.rank f1 (engineOf v core)
    let h := passVals 8 p1.1 (zeroVals ad.rank r.2.length)
    let mids := (List.range r.2.length).map (fun i => adapterMid ad (h.1.map (fun l => l.getD i 0)))
    let f2 := plainFeeds kr 64 bs r.2 (mids.map (·.1))
    let p2 := runPass ad.fmt ad.fmt g tl.rows.length f2 p1.2
    let j0 := r.2.headD 0
    let sub := passVals 8 p2.1 (a.vals.map (fun l => (l.drop j0).take r.2.length))
    let vals := List.zipWith (fun (l x : List W32) => l.take j0 ++ x ++ l.drop (j0 + x.length)) a.vals sub.1
    (.ok { vals := vals, sat := a.sat + h.2 + (mids.map (·.2)).sum + sub.2, passes := a.passes ++ [p1.1, p2.1] },
      countPass core (!o.colOff) (f1 ++ f2) (setEngine core p2.2 v)))))

/-- The adapter pass of a tile, run by run. -/
def adapterPass (n core : Nat) (o : Op) (tl : Tile) : List (Adapter × List Nat) → UnitSums → State → Res UnitSums
  | [], a, s => (.ok a, s)
  | r :: l, a, s => andThen (adapterRun n core o tl r a s) (fun b t => adapterPass n core o tl l b t)

/-! ## Tiles in the cores -/

/-- Puts a tile's values into a core's accumulator tile. -/
def putTile (core : Nat) (v : Vals) (s : State) : State :=
  forAll (numbered v) (fun p t => coreWrite core (p.1 * 1024) (p.2.flatMap (fun w => natLe 4 w.toNat)) t) s

/-- Free values for the entries of a tile that the manual leaves undefined (R101). -/
def freeVals (rows cols : Nat) (s : State) : Vals × State :=
  ((List.range rows).map (fun l => (List.range cols).map (fun j =>
      (Config.freeWord (s.free + l * cols + j)).setWidth 32)),
   { s with free := s.free + rows * cols })

/-- Leaves free values in a core's tile. -/
def spoilTile (tl : Tile) (core : Nat) (s : State) : State :=
  let f := freeVals tl.rows.length tl.cols.length s
  putTile core f.1 f.2

/-- What a tile delivers: the core of unit (t, 0), the final values, saturations, skipped compares, and the passes of
each of its units, by unit and core. -/
structure TileRes where
  tl : Tile
  core : Nat
  vals : Vals
  sat : Nat
  skip : Nat
  units : List (Nat × Nat × List Pass)
  deriving DecidableEq, Repr

/-- One tile: its units, their combine, the adapter pass (R92, R108). The combined tile stays on the core of unit
(t, 0); the other partitions' cores are left undefined (R101). -/
def tileRun (n : Nat) (o : Op) (linked : Bool) (ads : List (Option Adapter)) (tl : Tile) (s : State) : Res TileRes :=
  let c := chOf s n
  let cores := opCores c o.list
  let pn := opP c o
  let coreAt := fun (p : Nat) => unitCore cores (tl.t * pn + p)
  let core := coreAt 0
  let diag := opType o == 1 && df o 0x5B 1 == 1
  andThen (initVals n o linked core tl s) (fun init t =>
  andThen (listRes (fun p u =>
      let start := if p = 0 then init else zeroVals tl.rows.length tl.cols.length
      if diag then diagRun n core o tl start u else unitRun n (coreAt p) o tl (partRange o pn p) start u)
    (List.range pn) t) (fun us u =>
    let v := combineAll ((opAcc o).getD 8) us
    andThen (adapterPass n core o tl (adapterRuns (tl.cols.map (fun j => ads.getD j none)))
        { vals := v.1, sat := v.2, passes := (us.headD { vals := [], sat := 0, passes := [] }).passes } u) (fun a w =>
      let units := (tl.t * pn, core, a.passes) ::
        ((numbered us).drop 1).map (fun x => (tl.t * pn + x.1, coreAt x.1, x.2.passes))
      let skip := ((units.flatMap (·.2.2)).map (passSkips (!o.laneOff) (!o.colOff))).sum
      (.ok { tl := tl, core := core, vals := a.vals, sat := a.sat, skip := skip, units := units },
        forAll ((List.range (pn - 1)).map (fun p => coreAt (p + 1))) (spoilTile tl) (putTile core a.vals w)))))

/-- Reads the operands of an operation and computes every tile, in increasing t; `.error idx` for an adapter at
fault, before any tile. -/
def matCompute (n : Nat) (o : Op) (linked : Bool) (s : State) : Res (Except Nat (List TileRes)) :=
  let cols := List.range (matDims o).2.1
  andThen (if bit (control o) 25 && opType o == 1 then listRes (adapterOf n o) cols s else (.ok [], s)) (fun ads t =>
    match ads.findSome? (fun a => match a with | .error i => some i | .ok _ => none) with
    | some idx => (.ok (.error idx), t)
    | none =>
      andThen (listRes (tileRun n o linked (ads.map (fun a => match a with | .ok x => x | .error _ => none))) (tilesOf o) t)
        (fun ts u => (.ok (.ok ts), u)))

/-! ## Output -/

/-- The output steps of a descriptor (R103, R105, Table ENG-5). -/
def outCfg (o : Op) : OutCfg :=
  let w := control o
  { accFmt := (opAcc o).getD 8, fmt := df o 0x5A 1, sr := bit w 2, shift := fld w 24 20,
    seed := BitVec.ofNat 64 (df o 0x60 8), stream := BitVec.ofNat 32 (df o 0x68 4), drop := bit w 26,
    site := fld w 29 27, keep := df o 0x6C 2, scale := BitVec.ofNat 32 (df o 0x70 4) }

/-- A converted run with its place. -/
structure OutPart where
  core : Nat
  off : Nat
  scale : Nat
  run : RunOut
  deriving DecidableEq, Repr

/-- The converted runs of an operation, in increasing t. -/
def outParts (o : Op) (ts : List TileRes) : List OutPart :=
  ts.flatMap (fun r => (runsOf o (eltBits (df o 0x5A 1)) r.tl r.vals).map (fun q =>
    { core := r.core, off := q.off, scale := q.scale, run := convRun (outCfg o) q.i0 q.vals }))

/-- Adds the bytes `b` at an address to a list of runs, to the end of the run they follow; a run is written by the core
of its first part. -/
def joinRun (b : Nat × Nat × Bytes) : List (Nat × Nat × Bytes) → List (Nat × Nat × Bytes)
  | [] => [b]
  | a :: r => if a.2.1 + a.2.2.length = b.2.1 then (a.1, a.2.1, a.2.2 ++ b.2.2) :: r else a :: joinRun b r

/-- Writes converted runs to C and its scale array in whole code words (R114): a run of one tile that ends
within a code word goes out together with the run of the tile that follows it. -/
def writeParts (n : Nat) (o : Op) (ps : List OutPart) (s : State) : Res Unit :=
  let space := fld (control o) 15 14
  let unit := wordOf space
  let runs := ps.map (fun p => (p.core, df o 0x30 8 + p.off, packElts (df o 0x5A 1) p.run.codes))
  let isWhole (r : Nat × Nat × Bytes) : Bool := r.2.1 % unit == 0 && r.2.2.length % unit == 0
  let all := runs.filter isWhole ++ (runs.filter (fun r => !isWhole r)).foldl (fun a r => joinRun r a) []
  andThen (eachRes (fun (r : Nat × Nat × Bytes) t => dStore n (feeder r.1) space r.2.1 r.2.2 t) all s) (fun _ u =>
    if blockScaled (df o 0x5A 1) then
      eachRes (fun (p : OutPart) t =>
        dMerge n (feeder p.core) space (df o 0x38 8 + p.scale) (p.run.scales.map (BitVec.ofNat 8)) t) ps u
    else (.ok (), u))

/-- The reduction function of an output format (R101, Table ECH-3). -/
def redFn (fmt : Nat) : Nat := if fmt = 8 then 0 else if fmt = 7 then 1 else 2

/-- The contributions of `bs` at a remote address, one per line (R199, R200). -/
def contribsAt (seq : W32) (fn ra : Nat) (bs : Bytes) : List Contrib :=
  (granules 256 ra bs.length).map (fun g =>
    let lo := max ra g
    let part := slice bs (lo - ra) (min (ra + bs.length) (g + 256) - lo)
    { seq := seq, fn := fn, addr := BitVec.ofNat 64 g, hint := 0, mask := byteMask (lo - g) part.length,
      data := List.replicate (lo - g) 0 ++ part })

/-- Sends converted runs as reductions toward the remote address at C_ADDR (R101, R200). -/
def reduceParts (ch : Nat) (o : Op) (ps : List OutPart) (s : State) : Res Unit :=
  let c := chOf s ch
  match ps.find? (fun p => badRemote c (df o 0x30 8 + p.off)) with
  | some p => (.error { code := 0xA01, addr := df o 0x30 8 + p.off, space := 3, write := true }, s)
  | none =>
    (.ok (), forAll ps (fun p t =>
      forAll (contribsAt o.seq (redFn (df o 0x5A 1)) (df o 0x30 8 + p.off)
        (packElts (df o 0x5A 1) p.run.codes)) (contribute ch) t) s)

/-- Writes or sends the converted runs, as ACC_OUT says (R101). -/
def outputParts (n : Nat) (o : Op) (ps : List OutPart) (s : State) : Res Unit :=
  match accOut o with
  | 1 => (.ok (), s)
  | 3 => reduceParts n o ps s
  | _ => writeParts n o ps s

/-- Counts of the tiles of an operation: tile and output saturations, non-finite outputs, skipped compares, products
(R102, R123, R276, Table OBS-2). -/
def matCounts (n : Nat) (o : Op) (ts : List TileRes) (ps : List OutPart) (s : State) : State :=
  let sat := (ts.map (·.sat)).sum + (ps.map (·.run.sat)).sum
  let nf := (ps.map (·.run.nonfin)).sum
  let k := if opType o = 1 ∧ df o 0x5B 1 = 1 then 1 else (matDims o).2.2
  let macs := (ts.map (fun r => r.tl.rows.length * r.tl.cols.length * k)).sum
  bumpCh n 4 (macs / 1024) (modCh n (fun c =>
    let c1 := caddPair 0x518 (ts.map (·.skip)).sum (caddPair 0xE18 sat (caddPair 0xE10 nf c))
    let c2 := cmod 0x400 (fun w => setBit (setBit w 0 (bit w 0 || sat != 0)) 1 (bit w 1 || nf != 0)) c1
    modOp o.seq (fun q => { q with sat := q.sat + sat, nonfin := q.nonfin + nf }) c2) s)

/-! ## Chains (R249) and completion -/

/-- The open chain of alcove `k`. -/
def chainOf (c : Chamber) (k : Nat) : Option Chain := Tab.get none k c.chains

/-- Whether an operation continues the open chain of its alcove. -/
def linkedTo (c : Chamber) (o : Op) : Bool :=
  match chainOf c o.list with
  | some ch => match ch.seqs.getLast? with
    | some q => (match opOf c q with | some x => joins c x o | none => false)
    | none => false
  | none => false

/-- Reads the values of the tiles that the last link of a chain left. -/
def chainTiles (n : Nat) (o : Op) (s : State) : Res (List TileRes) :=
  let c := chOf s n
  let cores := opCores c o.list
  let p := opP c o
  listRes (fun (tl : Tile) t =>
    let core := unitCore cores (tl.t * p)
    andThen (heldVals core tl t) (fun v u =>
      (.ok { tl := tl, core := core, vals := v, sat := 0, skip := 0, units := [] }, u))) (tilesOf o) s

/-- Retires the operations of a chain in bank order (R249), with the waits on each one's counter evaluated after its
increment (R227). -/
def retireChain (n : Nat) (seqs : List W32) (s : State) : State :=
  forAll seqs (fun q t =>
    match opOf (chOf t n) q with
    | some o => settle n (retireOp n { o with ended := t.time } .ok t)
    | none => t) s

/-- Ends the open chain of alcove `k`: the last tile is written as the output of the last operation, and
every operation of the chain retires (R249). -/
def endChain (n k : Nat) (s : State) : State :=
  let c := chOf s n
  match chainOf c k with
  | none => s
  | some ch =>
    let s1 := setCh n { c with chains := Tab.set none k none c.chains } s
    match ch.seqs.getLast? with
    | none => s1
    | some q =>
      match opOf c q with
      | none => s1
      | some o =>
        match chainTiles n o s1 with
        | (.error e, t) => accessFault n o.seq 1 e t
        | (.ok ts, t) =>
          match writeParts n o (outParts o ts) t with
          | (.error e, u) => accessFault n o.seq 1 e u
          | (.ok (), u) => retireChain n ch.seqs u

/-- The fault of an adapter table entry (R106, R115). -/
def adapterFault (n : Nat) (o : Op) (idx : Nat) (s : State) : State :=
  failOp n o.seq .fault 0x605 [] (engFault 0x605 o.seq.toNat (0xFF + o.list * 256 + idx * 65536)) s

/-- The held tile set after an operation (R101, R170): there is one after HOLD and WRITE_HOLD, which a later KEEP may
take, and after a KEEP that ends otherwise, which the window still shows. -/
def holdTiles (o : Op) (ts : List TileRes) (c : Chamber) : Chamber :=
  let keeps := accOut o == 1 || accOut o == 2
  if !keeps && accIn o != 2 then c
  else
    let old := if accIn o = 2 then (match Tab.get none o.list c.held with | some h => h.sat | none => []) else []
    let h : HeldSet :=
      { m := if opType o = 2 then df o 0x4A 2 else (matDims o).1, n := (matDims o).2.1, p := opP c o,
        cores := ts.map (·.core), sat := ts.map (fun r => decide (r.sat ≠ 0) || old.getD r.tl.t false), keep := keeps }
    { c with held := Tab.set none o.list (some h) c.held }

/-- The chain that an operation leaves open, if the next operation of the alcove joins it (R249). -/
def nextJoins (n : Nat) (o : Op) (s : State) : Bool :=
  let held := setOp n o.seq (fun q => { q with state := .held }) s
  chainable (chOf s n) o &&
  (match choose held n o.list with
   | some (y, _) => joins (chOf s n) o y
   | none => false)

/-- Saturation flags that KEEP preserves (R102). -/
def keptSat (c : Chamber) (o : Op) : Bool :=
  accIn o == 2 && (match Tab.get none o.list c.held with | some h => h.sat.any id | none => false)

/-- Keeps an operation's chain open with the operation as its last link (R249). -/
def linkOp (n : Nat) (o : Op) (ts : List TileRes) (s : State) : State :=
  modCh n (fun d =>
    let seqs := (match chainOf d o.list with | some ch => ch.seqs | none => []) ++ [o.seq]
    let link : Chain := { seqs := seqs, desc := o.desc, cores := ts.map (·.core) }
    modOp o.seq (fun q => { q with state := .held, begun := true, ended := s.time })
      { d with chains := Tab.set none o.list (some link) d.chains }) (bump (64 + leaderDie (chOf s n)) 14 1 s)

/-- The end of an operation whose output is written: alone, or with the chain that it ends (R249). -/
def closeOp (n : Nat) (o : Op) (linked : Bool) (s : State) : State :=
  if linked then
    let seqs := match chainOf (chOf s n) o.list with | some ch => ch.seqs | none => []
    retireChain n (seqs ++ [o.seq]) (modCh n (fun d => { d with chains := Tab.set none o.list none d.chains }) s)
  else setOp n o.seq (fun q => { q with begun := true }) s

/-- The work of a MATMUL or CONV from its operands to its completion; meanwhile the feeders may stage the operation
that follows (R95). -/
def runMatrix (n : Nat) (o : Op) (s : State) : State :=
  let linked := linkedTo (chOf s n) o
  match matCompute n o linked s with
  | (.error e, t) => accessFault n o.seq 1 e t
  | (.ok (.error idx), t) => adapterFault n o idx t
  | (.ok (.ok ts), t) =>
    let parts := if accOut o = 1 then [] else outParts o ts
    let t1 := matCounts n o ts parts t
    let t2 := ifdo (keptSat (chOf s n) o) (modCh n (fun d => cmod 0x400 (fun w => setBit w 0 true)
      (modOp o.seq (fun q => { q with satFlag := true }) d))) t1
    if nextJoins n o t2 then stageAhead n o.list s (linkOp n o ts (modCh n (holdTiles o ts) t2))
    else
      match outputParts n o parts t2 with
      | (.error e, u) => accessFault n o.seq 1 e u
      | (.ok (), u) => closeOp n o linked (stageAhead n o.list s (modCh n (holdTiles o ts) u))

/-- A command for the work of an operation that a halt has just stopped: a fault of its own that comes within the
halt's 1 µs is still reported (Table OPS-8). -/
def lateMatrix (n : Nat) (seq : W32) (type : Nat) (s : State) : State :=
  match stoppedOp s n seq with
  | some o =>
    if opType o = type ∧ !o.begun then
      match matCompute n o false s with
      | (.error e, _) => lateFault n o (faultStatus e.code) e.code (memFault e o.seq.toNat 1) s
      | (.ok (.error idx), _) =>
        lateFault n o .fault 0x605 (engFault 0x605 o.seq.toNat (0xFF + o.list * 256 + idx * 65536)) s
      | (.ok (.ok _), _) => s
    else s
  | none => s

/-- MATMUL: the work of an executing MATMUL (R111). -/
def execMatmul (ch : Fin 32) (seq : W32) (s : State) : Host.Outcome State Fault Refusal :=
  match executing s ch.val seq [1] with
  | some o => if o.begun then .next s else .next (settleAll ch.val (runMatrix ch.val o s))
  | none => .next (lateMatrix ch.val seq 1 s)

/-- CONV: the work of an executing CONV (R97, R113). -/
def execConv (ch : Fin 32) (seq : W32) (s : State) : Host.Outcome State Fault Refusal :=
  match executing s ch.val seq [2] with
  | some o => if o.begun then .next s else .next (settleAll ch.val (runMatrix ch.val o s))
  | none => .next (lateMatrix ch.val seq 2 s)

end Sys2Proof.Machine
end

