-- ==== Sys2Proof/Machine/Lists.lean ====
section
/-! DEFINITION. Lists.lean: operation lists (R214 to R224), fetch, start and retirement, and the
operations of the sequencer and cache classes (R207 to R209, R227 to R231, R253 to R256). -/
namespace Sys2Proof.Machine
open Sys2Proof

/-! ## Fetch (R220 to R222, R244, R245) -/

/-- Entries posted and not fetched. -/
def unfetched (l : OpList) (size : Nat) : Nat := (l.tail + size - l.fetch) % size

/-- Moves banked operations into free places of the bank queue, in the order of their checks (R245). -/
def refillBank (n : Nat) (s : State) : State :=
  let c := chOf s n
  if 32 ≤ bankDepth c then s
  else
    match c.ops.find? (fun o => o.banked && o.state == .staged && !o.inQueue) with
    | none => s
    | some o => bump (64 + leaderDie c) 13 1
        (setOp n o.seq (fun q => { q with inQueue := true, entered := s.time }) s)

/-- Fills every free place of the bank queue. -/
def refillAll (n : Nat) (s : State) : State := (List.range 32).foldl (fun t _ => refillBank n t) s

/-- Whether DONE_CNT of a MATMUL or CONV lies in the banked range (R244). -/
def isBanked (c : Chamber) (o : Op) : Bool :=
  let w := cget 0xC00 c
  (opType o == 1 || opType o == 2) && decide (fld w 11 0 ≤ doneCnt o ∧ doneCnt o < fld w 11 0 + fld w 24 12)

/-- A staged operation takes the check switches of CHM_PROT (R222, R126). -/
def stageOp (n : Nat) (o : Op) (s : State) : State :=
  let c := chOf s n
  let p := cget 0x14 c
  refillBank n (setOp n o.seq (fun q =>
    { q with state := .staged, laneOff := bit p 0, colOff := bit p 1, banked := isBanked c o }) s)

/-- Numbers one descriptor, counts it in flight and advances OPS_FETCH (R220, R221). -/
def takeEntry (n k : Nat) (desc : Bytes) (s : State) : Op × State :=
  let c := chOf s n
  let l := Tab.get {} k c.lists
  let o : Op := { seq := BitVec.ofNat 32 (k * 2 ^ 29 + l.count % 2 ^ 29), list := k, entry := l.fetch, desc := desc }
  let l1 := { l with fetch := (l.fetch + 1) % listSize c k, count := (l.count + 1) % 2 ^ 29 }
  (o, bump (64 + leaderDie c) 1 1
    (setCh n { c with ops := c.ops ++ [o], lists := Tab.set {} k l1 c.lists } s))

/-- Whether the bellows may fetch from list `k` (R216, R221, R232). -/
def mayFetch (c : Chamber) (k : Nat) : Bool :=
  c.st == .running && decide (k < c.alcoves) && decide (listSize c k ≠ 0) &&
  (Tab.get {} k c.lists).fetch != (Tab.get {} k c.lists).tail && decide (c.ops.length < c.opShare)

/-- Address of entry `i` of list `k` (R214). -/
def entryAddr (c : Chamber) (k i : Nat) : Nat := cpair (0xA00 + 0x20 * k) c + 128 * i

/-- One descriptor of a read: fetched, numbered, checked and staged, or refused (R221, R222). -/
def fetchOne (n k : Nat) (s : State) : State :=
  let c := chOf s n
  match bulkLoad n (agent 4) (entryAddr c k (Tab.get {} k c.lists).fetch) 128 false s with
  | (.error e, t) =>
    let r := takeEntry n k (List.replicate 128 0) t
    accessFault n r.1.seq 4 e r.2
  | (.ok desc, t) =>
    let r := takeEntry n k desc t
    if headerBad r.1 then refuseOp n r.1 ⟨0xB02, opsFault 0xB02 r.1.seq.toNat 0⟩ r.2
    else
      match bodyRefusal n r.1 r.2 with
      | some f => refuseOp n r.1 f r.2
      | none => stageOp n r.1 r.2

/-- Up to `fuel` descriptors of one read, while fetching may go on. -/
def fetchSome (n k : Nat) : Nat → State → State
  | 0, s => s
  | fuel + 1, s => if mayFetch (chOf s n) k then fetchSome n k fuel (fetchOne n k s) else s

/-- The list whose turn it is: the next one after the list read last that has something to fetch (R221). -/
def nextFetch (c : Chamber) : Option Nat :=
  ((List.range 8).map (fun i => (c.turn + 1 + i) % 8)).find? (mayFetch c)

/-- DESCRIPTOR_FETCH (R221): a read of the list whose turn it is. -/
def execDescriptorFetch (ch : Fin 32) (list : Fin 8) (s : State) : Host.Outcome State Fault Refusal :=
  if nextFetch (chOf s ch.val) = some list.val then
    .next (settleAll ch.val (fetchSome ch.val list.val 8 (modCh ch.val (fun c => { c with turn := list.val }) s)))
  else .next s

/-! ## Start (R223, R247, R249) -/

/-- Whether a KEEP matches the held tile set of its alcove (R100): M, N and P. -/
def keepMatches (c : Chamber) (o : Op) : Bool :=
  match Tab.get none o.list c.held with
  | some h =>
    h.keep && h.m == (if opType o = 2 then df o 0x4A 2 else (matDims o).1) && h.n == (matDims o).2.1 && h.p == opP c o
  | none => false

/-- A TRANSFER's stream takes its context (Table OPS-10). -/
def startStream (n : Nat) (o : Op) (s : State) : State :=
  putStream n (streamOf o)
    { st := 1, spaces := BitVec.ofNat 8 (df o 0x28 1 + 16 * df o 0x29 1), seq := o.seq,
      src := BitVec.ofNat 64 (df o 0x10 8), dst := BitVec.ofNat 64 (df o 0x18 8), length := df o 0x20 8,
      lastProgress := s.time, tmo := BitVec.ofNat 32 (df o 0x30 4) } s

/-- What is staged for an operation becomes what its lanes take rows from, on every core of its alcove (R95). -/
def takeStaged (n : Nat) (o : Op) (s : State) : State :=
  forAll (opCores (chOf s n) o.list) (fun core t => setEngine core (swapHalves o.seq (engineOf t core)) t) s

/-- What the start of an operation changes besides its state: KEEP check, held tile set, staged operands, stream. -/
def startEffect (n : Nat) (o : Op) (s : State) : State :=
  let c := chOf s n
  if opType o = 1 ∨ opType o = 2 then
    if accIn o = 2 then
      if keepMatches c o then takeStaged n o s
      else refuseOp n o ⟨0x604, engFault 0x604 o.seq.toNat (0x5C + o.list * 256)⟩ s
    else takeStaged n o (setCh n { c with held := Tab.set none o.list none c.held } s)
  else if opType o = 4 then startStream n o s
  else s

/-- An operation enters EXECUTING. Where it works in its alcove, the feeders may stage the next one (R95). -/
def startOp (n : Nat) (o : Op) (s : State) : State :=
  let s1 := bump (64 + leaderDie (chOf s n)) 3 1
    (setOp n o.seq (fun q => { q with state := .executing, start := s.time, inQueue := false }) s)
  let s2 := startEffect n o (refillAll n s1)
  ifdo (isRunning s2 n && (isMatrix (opType o) || opType o == 3)) (stageAhead n o.list s2) s2

/-- The engine of alcove `k` takes the choice of R247; an open chain that the choice does not join ends
first, and so does one that nothing follows (R249). An EPOCH may hold the chosen operation back (R254). -/
def startEngine (n k : Nat) (s : State) : State :=
  let c := chOf s n
  if c.st ≠ .running ∨ !engineFree c k then s
  else
    match choose s n k with
    | none => endChain n k s
    | some (o, forced) =>
      let s1 := if (chainOf c k).isSome && !linkedTo c o then endChain n k s else s
      let s2 := ifdo forced (modCh n (cmod 0xC08 (fun w => setBit w 7 true))) s1
      if (chOf s2 n).st = .running ∧ engineFree (chOf s2 n) k ∧ !epochBlocks (chOf s2 n) o then startOp n o s2 else s2

/-- The next operation of list `k`, if it is not of the matrix class and may start. -/
def startNext (n k : Nat) (s : State) : State :=
  match (listOps (chOf s n) k).find? (fun o => o.state == .staged) with
  | some o => if isRunning s n && !isMatrix (opType o) && startable s n o then startOp n o s else s
  | none => s

/-- OPERATION_START (R223, R247). -/
def execOperationStart (ch : Fin 32) (list : Fin 8) (engine : Bool) (s : State) :
    Host.Outcome State Fault Refusal :=
  .next (settleAll ch.val (if engine then startEngine ch.val list.val s else startNext ch.val list.val s))

/-- BANK_AGE_FORCE (R247): a bank head that has reached AGE takes the free engine. -/
def execBankAgeForce (ch : Fin 32) (list : Fin 8) (s : State) : Host.Outcome State Fault Refusal :=
  let n := ch.val
  match bankHead (chOf s n) list.val with
  | some b => if bankForced s (chOf s n) b then .next (settleAll n (startEngine n list.val s)) else .next s
  | none => .next s

/-- OPERATION_RETIRE (R224): an operation in RETIRING retires OK. -/
def execOperationRetire (ch : Fin 32) (seq : W32) (s : State) : Host.Outcome State Fault Refusal :=
  match opOf (chOf s ch.val) seq with
  | some o => if o.state = .retiring then .next (settleAll ch.val (retireOp ch.val o .ok s)) else .next s
  | none => .next s

/-! ## SIGNAL and WAIT (R228 to R231) -/

/-- The value of a counter after an addition or a setting. -/
def signalValue (c : Chamber) (k mode : Nat) (v : W32) : W32 := if mode = 1 then v else counterOf c k + v

/-- The work of a SIGNAL; it retires at once, or when its message has left (R229). -/
def runSignal (n : Nat) (o : Op) (s : State) : State :=
  let c := chOf s n
  let peer := df o 0x10 1
  let k := df o 0x12 2
  let v := BitVec.ofNat 32 (df o 0x14 4)
  let s1 :=
    if peer = 0xFF then changeCounter n k (signalValue c k (df o 0x11 1) v) s
    else
      let ra := peer * 2 ^ 56 + k
      let tag := newTag c
      request n { tag := tag, kind := .signal, addr := BitVec.ofNat 64 ra, deadline := 0, seq := o.seq,
                  pkt := toOwner s n ra 4 (natLe 4 tag ++ slice o.desc 0x12 2 ++ slice o.desc 0x11 1 ++ natLe 1 0 ++
                    slice o.desc 0x14 4) } s
  retireOp n { o with ended := s1.time } .ok s1

/-- SIGNAL: the work of an executing SIGNAL (R229). -/
def execSignal (ch : Fin 32) (seq : W32) (s : State) : Host.Outcome State Fault Refusal :=
  match executing s ch.val seq [7] with
  | some o => .next (settleAll ch.val (runSignal ch.val o s))
  | none => .next s

/-- WAIT: an executing WAIT is evaluated (R228). -/
def execWait (ch : Fin 32) (seq : W32) (s : State) : Host.Outcome State Fault Refusal :=
  match executing s ch.val seq [8] with
  | some _ => .next (settleAll ch.val s)
  | none => .next s

/-- Timeout of a WAIT in ns (R231). -/
def waitTmo (c : Chamber) (o : Op) : Nat :=
  1000000 * (if df o 8 4 ≠ 0 then df o 8 4 else max 1 (fld (cget 0x900 c) 15 0))

/-- Timeout of a KERNEL in ns (R231). -/
def kernelTmo (c : Chamber) (o : Op) : Nat :=
  1000000 * (if df o 8 4 ≠ 0 then df o 8 4 else 10 * max 1 (fld (cget 0x900 c) 31 16))

/-- WAIT_TIMEOUT (R231). -/
def execWaitTimeout (ch : Fin 32) (seq : W32) (s : State) : Host.Outcome State Fault Refusal :=
  let n := ch.val
  match executing s n seq [8] with
  | some o =>
    if o.start.toNat + waitTmo (chOf s n) o < now s then
      .next (settleAll n (failOp n seq .timeout 0xB03 []
        (opsFault 0xB03 seq.toNat (counterInfo (df o 0x10 2 % 4096))) s))
    else .next s
  | none => .next s

/-- KERNEL_TIMEOUT (R231). -/
def execKernelTimeout (ch : Fin 32) (seq : W32) (s : State) : Host.Outcome State Fault Refusal :=
  let n := ch.val
  match executing s n seq [3] with
  | some o =>
    if o.start.toNat + kernelTmo (chOf s n) o < now s then
      .next (settleAll n (failOp n seq .timeout 0xB04 [] (opsFault 0xB04 seq.toNat 0) s))
    else .next s
  | none => .next s

/-! ## FLUSH and EPOCH (R207 to R209, R253 to R256) -/

/-- Whether a line address lies in the scope of a FLUSH (Table ECH-7). -/
def inScope (o : Op) (la : Nat) : Bool :=
  df o 0x20 4 / 4 % 2 == 1 || decide (df o 0x10 8 ≤ la ∧ la < df o 0x10 8 + df o 0x18 8)

/-- Sends the ACCUM lines that satisfy `p`. -/
def sendLines (n : Nat) (seq : W32) (p : Line → Bool) (s : State) : State :=
  forAll ((chOf s n).lines.filter (fun l => l.st == .accum && p l)) (fun l t => sendLine n seq l t) s

/-- Invalidates the READ lines that satisfy `p`. -/
def dropReads (n : Nat) (p : Line → Bool) (s : State) : State :=
  modCh n (fun c => { c with lines := c.lines.filter (fun l => !(l.st == .read && p l)) }) s

/-- Drops the returned lines of a scope that wait to be installed (R197). -/
def dropInstalls (n : Nat) (o : Op) (s : State) : State :=
  modCh n (fun c => { c with waitAlloc := c.waitAlloc.filter (fun k => !(k.install && inScope o k.addr.toNat)) }) s

/-- What a FLUSH does when it starts, and the tags that it waits for (R197, R208). -/
def runFlush (n : Nat) (o : Op) (s : State) : State :=
  let w := df o 0x20 4
  let send := w % 2 == 1
  let inval := w / 2 % 2 == 1
  let sel := w / 8 % 2 == 1
  let hit := fun (l : Line) => inScope o l.addr.toNat
  let s1 := ifdo send (sendLines n o.seq (fun l => hit l && (!sel || l.epoch.toNat == df o 0x24 2))) s
  let s2 := ifdo inval (fun t => dropInstalls n o (dropReads n hit t)) s1
  let near := fun (r : Req) => inScope o (lineAddr r.addr.toNat)
  modCh n (fun c =>
    let waits := (c.reqs.filter (fun r => near r && (r.kind == .reduce || (inval && r.kind == .fill)))).map (·.tag) ++
      (if send then (c.lines.filter (fun l => hit l && l.due.isSome)).map (·.tag) else [])
    let reqs := c.reqs.map (fun r => if inval && near r && r.kind == .fill && r.sent then { r with install := false } else r)
    modOp o.seq (fun q => { q with begun := true, waits := waits }) { c with reqs := reqs }) s2

/-- FLUSH: the work of an executing FLUSH (R208). -/
def execFlush (ch : Fin 32) (seq : W32) (s : State) : Host.Outcome State Fault Refusal :=
  match executing s ch.val seq [0xC] with
  | some o => if o.begun then .next s else .next (settleAll ch.val (runFlush ch.val o s))
  | none => .next s

/-- Step 1 of an EPOCH (R255). -/
def runEpoch (n : Nat) (o : Op) (s : State) : State :=
  let e := fld (creg s n 0x808) 15 0
  let next := if df o 0x10 1 = 1 then df o 0x12 2 else (e + 1) % 65536
  let s1 := sendLines n o.seq (fun l => l.epoch.toNat == e) s
  let s2 := ifdo (df o 0x11 1 % 2 == 1) (fun t => modCh n (fun c => { c with waitAlloc := c.waitAlloc.filter (fun k => !k.install) })
    (dropReads n (fun _ => true) t)) s1
  modCh n (fun c => modOp o.seq (fun q => { q with begun := true })
    (cset 0xC0C (BitVec.ofNat 32 (next * 65536 + 1)) c)) s2

/-- EPOCH: the work of an executing EPOCH (R255). -/
def execEpoch (ch : Fin 32) (seq : W32) (s : State) : Host.Outcome State Fault Refusal :=
  match executing s ch.val seq [9] with
  | some o => if o.begun then .next s else .next (settleAll ch.val (runEpoch ch.val o s))
  | none => .next s

/-- EPOCH_DRAIN_TIMEOUT (R256). -/
def execEpochDrainTimeout (ch : Fin 32) (seq : W32) (s : State) : Host.Outcome State Fault Refusal :=
  let n := ch.val
  match executing s n seq [9] with
  | some o =>
    if o.begun ∧ o.start.toNat + 1000000 * df o 0x14 4 ≤ now s then
      .next (settleAll n (failOp n seq .timeout 0xC01 [] (pipFault 0xC01) s))
    else .next s
  | none => .next s

/-! ## Register writes of the sequencer and of the pipeline (R215, R216, R227, R235, R258) -/

/-- A write that the module ignores with an event. -/
def ignored (n code : Nat) (s : State) : State := event n code 0 [] s

/-- Whether a chamber has list `k` (R214). -/
def hasList (s : State) (n k : Nat) : Bool := decide (k < (chOf s n).alcoves)

/-- A doorbell (R216, Table OPS-8): TAIL is bits [19:0], and the reserved bits are ignored (R8). -/
def writeTail (n k : Nat) (v : W32) (s : State) : State :=
  let c := chOf s n
  let l := Tab.get {} k c.lists
  let size := listSize c k
  let t := fld v 19 0
  if !hasList s n k then s
  else if c.st = .clearing ∨ size = 0 ∨ size ≤ t then ignored n 0xB08 s
  else if (l.tail + size - l.head) % size ≤ (t + size - l.head) % size then
    setCh n { c with lists := Tab.set {} k { l with tail := t } c.lists } s
  else ignored n 0xB08 s

/-- A write of OPS_LBASE (R215). -/
def writeLbase (n k : Nat) (hi : Bool) (v : W32) (s : State) : State :=
  if !hasList s n k then s
  else if !isIdle s n then ignored n 0xB08 s
  else if hi then setCreg n (0xA04 + 0x20 * k) (v &&& 0xFFFF#32) s
  else setCreg n (0xA00 + 0x20 * k) (v &&& 0xFFFFF000#32) s

/-- A write of OPS_LSIZE (R215). -/
def writeLsize (n k : Nat) (v : W32) (s : State) : State :=
  let z := fld v 4 0
  if !hasList s n k then s
  else if !isIdle s n ∨ !(z == 0 || decide (6 ≤ z ∧ z ≤ 20)) then ignored n 0xB08 s
  else setCreg n (0xA08 + 0x20 * k) (BitVec.ofNat 32 z) s

/-- Whether a stream table fits the gallery window (R235). -/
def tableFits (s : State) (n base count : Nat) : Bool := decide (base + 64 * count ≤ winSize s (chOf s n))

/-- A write of OPS_STR_BASE (R235). -/
def writeStrBase (n : Nat) (hi : Bool) (v : W32) (s : State) : State :=
  let c := chOf s n
  let c1 := if hi then cset 0x914 (v &&& 0x3#32) c else cset 0x910 (v &&& 0xFFFF0000#32) c
  if isIdle s n && tableFits s n (cpair 0x910 c1) (fld (cget 0x918 c) 18 0) then setCh n c1 s
  else ignored n 0xB08 s

/-- Streams of every chamber but one. -/
def otherStreams (s : State) (n : Nat) : Nat :=
  (allCh.map (fun m => if m = n ∨ !defined s m then 0 else fld (creg s m 0x918) 18 0)).sum

/-- A write of OPS_STR_COUNT (R235). -/
def writeStrCount (n : Nat) (v : W32) (s : State) : State :=
  let k := fld v 18 0
  if isIdle s n && (k == 0 || 2 ^ Nat.log2 k == k) && decide (otherStreams s n + k ≤ 262144) &&
      tableFits s n (cpair 0x910 (chOf s n)) k then
    setCreg n 0x918 (BitVec.ofNat 32 k) s
  else ignored n 0xB08 s

/-- A write of a counter, or of the add window (R227). -/
def writeCounter (n k : Nat) (add : Bool) (v : W32) (s : State) : State :=
  noteWaits n (changeCounter n k (if add then counterOf (chOf s n) k + v else v) s)

/-- A write of PIP_BANK_CFG (R258). -/
def writeBankCfg (n : Nat) (v : W32) (s : State) : State :=
  if isIdle s n && decide (fld v 11 0 + fld v 24 12 ≤ 4096) then setCreg n 0xC00 (v &&& 0x1FFFFFF#32) s
  else ignored n 0xC04 s

/-- A write of PIP_BANK_AGE (R258). -/
def writeBankAge (n : Nat) (v : W32) (s : State) : State :=
  if isIdle s n then setCreg n 0xC04 (v &&& 0xFFFF#32) s else ignored n 0xC04 s

/-- A write of PIP_STAGE_k (R258). -/
def writeStage (n k : Nat) (v : W32) (s : State) : State :=
  if isIdle s n && hasList s n k then setCreg n (0xC40 + 0x20 * k) (v &&& 0x0FFF1FFF#32) s
  else ignored n 0xC04 s

end Sys2Proof.Machine
end

