-- ==== Sys2Proof/Machine/Update.lean ====
section
/-! DEFINITION. Update.lean: the optimizer step, the ash stream's records and the SEAL (R263 to R280). -/
namespace Sys2Proof.Machine
open Sys2Proof

/-! ## One element (R267 to R269) -/

/-- The parameter block (Table OPT-3). -/
structure Params where
  lr : W32
  b1 : W32
  omb1 : W32
  b2 : W32
  omb2 : W32
  eps : W32
  wd : W32
  bc1 : W32
  bc2 : W32
  gscale : W32
  clip : W32
  deriving DecidableEq, Repr

/-- Reads the parameter block's words. -/
def paramsOf (bs : Bytes) : Params :=
  let w := fun (off : Nat) => BitVec.ofNat 32 (at_ bs off 4)
  { lr := w 0, b1 := w 4, omb1 := w 8, b2 := w 12, omb2 := w 16, eps := w 20, wd := w 24, bc1 := w 28,
    bc2 := w 32, gscale := w 36, clip := w 40 }

/-- SQRT and RECIP (R159). -/
def sqrtF (a : W32) : W32 := r32 (sqrtX (x32 a))
/-- RECIP (R159). -/
def recipF (a : W32) : W32 := r32 (recipX (x32 a))
/-- FP32 with its sign changed. -/
def negF (a : W32) : W32 := a ^^^ 0x80000000#32

/-- Whether an FP32 value is greater than another (false with a NaN). -/
def gtF (a b : W32) : Bool :=
  match cmpX (x32 a) (x32 b) with
  | some c => decide (0 < c)
  | none => false

/-- The second moment of a code with its scale byte: r², rounded once to FP32 (R269). -/
def decodeV (q s : Nat) : W32 :=
  if s = 255 then 0x7FC00000#32 else r32 (.fin false (q * q) (2 * ((s : Int) - 135)))

/-- What the step makes of one element: new weight, first and second moment (R267). -/
def stepElt (p : Params) (c g w m v : W32) : W32 × W32 × W32 :=
  let g1 := mulF (mulF g p.gscale) c
  let m1 := macF p.b1 m (mulF p.omb1 g1)
  let v1 := macF p.b2 v (mulF p.omb2 (mulF g1 g1))
  let u := mulF (mulF m1 p.bc1) (recipF (addF (sqrtF (mulF v1 p.bc2)) p.eps))
  let t := macF p.wd w u
  (macF (negF p.lr) t w, m1, v1)

/-- Rounds r × 2^(135 − s) to an integer code up to 255 (R269 step 3). -/
def codeV (r : XV) (s : Nat) (mode : Rnd) : Nat :=
  match r with
  | .fin _ m e => min 255 (roundMag m (e + 135 - s) 0 mode)
  | _ => 0

/-- Encodes a block's second moments (R269): codes, scale byte, non-finite values. -/
def encodeV (vs : List W32) (modes : List Rnd) : Conv :=
  let bad := vs.countP (fun v => !finite32 v)
  if bad ≠ 0 then { codes := vs.map (fun _ => 0), scale := 255, nonfin := bad }
  else
    let rs := vs.map sqrtF
    let rmax := rs.foldl (fun a r => max a (r.toNat % 2 ^ 31)) 0
    if rmax = 0 then { codes := vs.map (fun _ => 0), scale := 127 }
    else
      let ex : Int := match decodeF f32 rmax with
        | .fin _ m e => ((Nat.log2 m : Nat) : Int) + e
        | _ => 0
      let s := (max 0 (min (ex + 128) 254)).toNat
      { codes := List.zipWith (fun r md => codeV (x32 r) s md) rs modes, scale := s }

/-- A negative second moment, which the manual says never arises and for which it gives no code (R269). -/
def negV (v : W32) : Bool := finite32 v && decide (0x80000000 < v.toNat)

/-! ## One unit of 64 elements (R263, R267, R271) -/

/-- The stored bytes of a unit, in the order of a DELTA record: W, REM, M codes, V codes, M scales, V
scales. -/
structure UnitBytes where
  w : Bytes
  rem : Bytes
  m : Bytes
  v : Bytes
  ms : Bytes
  vs : Bytes
  deriving DecidableEq, Repr

/-- What a unit's step delivers. -/
structure UnitRes where
  bytes : UnitBytes
  sat : Nat
  nonfin : Nat
  deriving DecidableEq, Repr

/-- The step of one unit (R267 to R270); `free` gives the codes of a block with a negative second moment
(log entry 31). -/
def stepUnit (p : Params) (c : W32) (sr : Bool) (seed : W64) (stream : W32) (pos : Nat) (free : Nat → W64)
    (old : UnitBytes) (gs : List W32) : UnitRes :=
  let idx := List.range 64
  let mf := (eltOf 3).getD ⟨8, 4, 3, 7, 8⟩
  let one := fun (j : Nat) =>
    let w : W32 := BitVec.ofNat 32 (at_ old.w (2 * j) 2 * 65536 + at_ old.rem (2 * j) 2)
    let m := r32 (decodeElt mf (at_ old.m j 1) (at_ old.ms (j / 32) 1))
    let v := decodeV (at_ old.v j 1) (at_ old.vs (j / 32) 1)
    stepElt p c (gs.getD j 0) w m v
  let rs := idx.map one
  let mode := fun (dom : W32) (j : Nat) => if sr then Rnd.sr (draw16 seed stream dom ((pos + j) % 2 ^ 64)) else .rne
  let half := fun (b : Nat) => (rs.drop (32 * b)).take 32
  let modes := fun (dom : W32) (b : Nat) => (List.range 32).map (fun j => mode dom (32 * b + j))
  let ms := (List.range 2).map (fun b => quantBlock mf ((half b).map (·.2.1)) (modes 0x80000021#32 b))
  let vs := (List.range 2).map (fun b =>
    let xs := (half b).map (·.2.2)
    if xs.any negV then
      { codes := (List.range 32).map (fun j => (free (33 * b + j)).toNat % 256), scale := (free (33 * b + 32)).toNat % 256 }
    else encodeV xs (modes 0x80000022#32 b))
  { bytes :=
      { w := rs.flatMap (fun r => natLe 2 (r.1.toNat / 65536)), rem := rs.flatMap (fun r => natLe 2 r.1.toNat),
        m := ms.flatMap (fun q => q.codes.map (BitVec.ofNat 8)), v := vs.flatMap (fun q => q.codes.map (BitVec.ofNat 8)),
        ms := ms.map (fun q => BitVec.ofNat 8 q.scale), vs := vs.map (fun q => BitVec.ofNat 8 q.scale) },
    sat := (ms.map (·.sat)).sum,
    nonfin := rs.countP (fun r => !finite32 r.1) + (ms.map (·.nonfin)).sum + (vs.map (·.nonfin)).sum }

/-- All the bytes of a unit in record order. -/
def unitList (u : UnitBytes) : Bytes := u.w ++ u.rem ++ u.m ++ u.v ++ u.ms ++ u.vs

/-- The DELTA record of a unit, without its CRC (Table OPT-5). -/
def deltaRec (seq : W32) (tensor pos unit : Nat) (a b : UnitBytes) : Bytes :=
  natLe 1 1 ++ natLe 1 0 ++ natLe 2 7 ++ natLe 4 seq.toNat ++ natLe 2 tensor ++ natLe 6 0 ++ natLe 8 pos ++
  natLe 4 unit ++ natLe 4 0 ++ xorBytes (unitList a) (unitList b) ++ List.replicate 24 0

/-! ## UPDATE (R263 to R266) -/

/-- Reads a unit's stored bytes. -/
def readUnit (n : Nat) (o : Op) (u : Nat) (s : State) : Res UnitBytes :=
  let sp := df o 0x60 4 % 4
  let cnt := df o 0x58 4
  let ld := fun (a k : Nat) (t : State) => dLoad n (agent 1) sp a k t
  andThen (ld (df o 0x10 8 + 128 * u) 128 s) (fun w s1 =>
  andThen (ld (df o 0x18 8 + 128 * u) 128 s1) (fun r s2 =>
  andThen (ld (df o 0x20 8 + 64 * u) 64 s2) (fun m s3 =>
  andThen (ld (df o 0x28 8 + 64 * u) 64 s3) (fun v s4 =>
  andThen (ld (df o 0x20 8 + cnt + 2 * u) 2 s4) (fun ms s5 =>
  andThen (ld (df o 0x28 8 + cnt + 2 * u) 2 s5) (fun vs s6 =>
    (.ok ⟨w, r, m, v, ms, vs⟩, s6)))))))

/-- Writes a unit's stored bytes (R185, R267). -/
def writeUnit (n : Nat) (o : Op) (u : Nat) (b : UnitBytes) (s : State) : Res Unit :=
  let sp := df o 0x60 4 % 4
  let cnt := df o 0x58 4
  andThen (dStore n (agent 1) sp (df o 0x10 8 + 128 * u) b.w s) (fun _ s1 =>
  andThen (dStore n (agent 1) sp (df o 0x18 8 + 128 * u) b.rem s1) (fun _ s2 =>
  andThen (dStore n (agent 1) sp (df o 0x20 8 + 64 * u) b.m s2) (fun _ s3 =>
  andThen (dStore n (agent 1) sp (df o 0x28 8 + 64 * u) b.v s3) (fun _ s4 =>
  andThen (dMerge n (agent 1) sp (df o 0x20 8 + cnt + 2 * u) b.ms s4) (fun _ s5 =>
    dMerge n (agent 1) sp (df o 0x28 8 + cnt + 2 * u) b.vs s5)))))

/-- Reads the gradients of a unit. -/
def readGrad (n : Nat) (o : Op) (u : Nat) (s : State) : Res (List W32) :=
  let w : W32 := BitVec.ofNat 32 (df o 0x60 4)
  let size := if bit w 6 then 2 else 4
  andThen (dLoad n (agent 1) (fld w 3 2) (df o 0x30 8 + 64 * size * u) (64 * size) s) (fun bs t =>
    (.ok ((List.range 64).map (fun j =>
      if bit w 6 then BitVec.ofNat 32 (at_ bs (2 * j) 2 * 65536) else BitVec.ofNat 32 (at_ bs (4 * j) 4))), t))

/-- What a unit's step counts: SMK_NONFIN and SMK_SAT, and the operation's own counts (R270, R276). -/
def countUnit (n : Nat) (o : Op) (r : UnitRes) (s : State) : State :=
  modCh n (fun d => modOp o.seq (fun q => { q with sat := q.sat + r.sat, nonfin := q.nonfin + r.nonfin })
    (caddPair 0xE18 r.sat (caddPair 0xE10 r.nonfin d))) s

/-- One unit: read, step, counts, write, and its DELTA record where a stored byte changed (R271). What the step
produced counts also where a write then faults (R276). -/
def doUnit (n : Nat) (o : Op) (p : Params) (c : W32) (u : Nat) (s : State) : Res Unit :=
  let w : W32 := BitVec.ofNat 32 (df o 0x60 4)
  andThen (readUnit n o u s) (fun old s1 =>
  andThen (readGrad n o u s1) (fun gs s2 =>
    let pos := (df o 0x50 8 + 64 * u) % 2 ^ 64
    let base := s2.free
    let r := stepUnit p c (bit w 7) (BitVec.ofNat 64 (df o 0x48 8)) (BitVec.ofNat 32 (df o 0x5C 4)) pos
      (fun k => Config.freeWord (base + k)) old gs
    andThen (writeUnit n o u r.bytes (countUnit n o r { s2 with free := base + 66 })) (fun _ s4 =>
      let k : AshWait := { seq := o.seq, bytes := deltaRec o.seq (df o 0x66 2) pos u old r.bytes, isSeal := false }
      let changed := bit w 8 && r.bytes != old
      (.ok (), ifdo changed (modCh n (fun d => { d with ash := d.ash ++ [k] })) s4))))

/-- The skip of an UPDATE's step (R266): SMK_SKIP, SKIPPED and the record 0x0D03. -/
def skipUpdate (n : Nat) (o : Op) (sum norm : W32) (s : State) : State :=
  let s1 := modCh n (fun c =>
    modOp o.seq (fun q => { q with skip := true, begun := true })
      (ccount 0xE20 1 (cmod 0xE04 (fun w => setBit w 0 true)
        { c with stepUpdates := c.stepUpdates + 1, stepSkips := c.stepSkips + 1 }))) s
  raiseRec (ringOf s1 n) 0xD03 false
    (natLe 2 0xD03 ++ natLe 1 0 ++ natLe 1 6 ++ natLe 4 o.seq.toNat ++ natLe 8 (now s1) ++ natLe 4 sum.toNat ++
     natLe 4 norm.toNat ++ natLe 4 (creg s1 n 0xE00).toNat ++ slice o.desc 0x66 2 ++ natLe 2 0 ++ List.replicate 32 0) s1

/-- The factor c of R266, or `none` for a skipped step. -/
def clipFactor (p : Params) (thr norm : W32) : Option W32 :=
  if !finite32 norm || gtF norm thr then none
  else if gtF p.clip 0 && gtF norm p.clip then some (mulF p.clip (recipF norm))
  else some 0x3F800000#32

/-- The units of an UPDATE with one factor. -/
def applyUpdate (n : Nat) (o : Op) (p : Params) (c : W32) (s : State) : State :=
  match eachRes (doUnit n o p c) (List.range (df o 0x58 4 / 64)) s with
  | (.error e, t) => accessFault n o.seq 1 e t
  | (.ok (), t) => modCh n (fun d => modOp o.seq (fun q => { q with begun := true })
      { d with stepUpdates := d.stepUpdates + 1 }) t

/-- The work of an UPDATE (R266, R267). -/
def runUpdate (n : Nat) (o : Op) (s : State) : State :=
  let w : W32 := BitVec.ofNat 32 (df o 0x60 4)
  match bulkLoad n (agent 1) (df o 0x40 8) 64 false s with
  | (.error e, t) => accessFault n o.seq 1 e t
  | (.ok bs, t) =>
    let p := paramsOf bs
    if bit w 9 then
      match dLoad n (agent 1) (fld w 5 4) (df o 0x38 8) 4 t with
      | (.error e, u) => accessFault n o.seq 1 e u
      | (.ok sb, u) =>
        let sum : W32 := BitVec.ofNat 32 (leNat sb)
        let norm := sqrtF sum
        match clipFactor p (creg u n 0xE00) norm with
        | none => skipUpdate n o sum norm u
        | some c => applyUpdate n o p c u
    else applyUpdate n o p 0x3F800000#32 t

/-- UPDATE: the work of an executing UPDATE (R266), with what the feeders staged meanwhile (R95). -/
def execUpdate (ch : Fin 32) (seq : W32) (s : State) : Host.Outcome State Fault Refusal :=
  match executing s ch.val seq [6] with
  | some o =>
    if o.begun then .next s else .next (settleAll ch.val (stageAhead ch.val o.list s (runUpdate ch.val o s)))
  | none => .next s

/-- UPDATE_NORM_TIMEOUT (R265). -/
def execUpdateNormTimeout (ch : Fin 32) (seq : W32) (s : State) : Host.Outcome State Fault Refusal :=
  let n := ch.val
  let c := chOf s n
  match opOf c seq with
  | some o =>
    match o.waitFrom with
    | some t0 =>
      if opType o = 6 ∧ o.state = .staged ∧ !normMet c o ∧
          t0.toNat + 1000000 * max 1 (fld (cget 0x900 c) 15 0) ≤ now s then
        .next (settleAll n (failOp n seq .timeout 0xD05 [] (optFault 0xD05 seq.toNat) s))
      else .next s
    | none => .next s
  | none => .next s

/-- ASH_TIMEOUT (R272): a record that has waited WAIT_TMO ms. -/
def execAshTimeout (ch : Fin 32) (seq : W32) (s : State) : Host.Outcome State Fault Refusal :=
  let n := ch.val
  let c := chOf s n
  match c.ash.head?, c.ashFrom with
  | some r, some t0 =>
    if r.seq = seq ∧ t0.toNat + 1000000 * max 1 (fld (cget 0x900 c) 15 0) ≤ now s then
      .next (settleAll n (failOp n seq .timeout 0xD06 [] (optFault 0xD06 seq.toNat) s))
    else .next s
  | _, _ => .next s

/-! ## The loss-spike detector and SEAL (R274, R278) -/

/-- The detector's answer: spike, and the EWMA and sample count after it. -/
def detect (c : Chamber) (l : W32) : Bool × W32 × W32 :=
  let cfg := cget 0xE28 c
  let alpha := max 1 (fld cfg 3 0)
  let e := cget 0xE30 c
  let cnt := cget 0xE38 c
  if !finite32 l then (true, e, cnt)
  else if decide (fld cfg 15 8 ≤ cnt.toNat) && gtF l (mulF (cget 0xE2C c) e) then (true, e, cnt)
  else
    let a : W32 := BitVec.ofNat 32 ((127 - alpha) * 2 ^ 23)
    (false, if cnt = 0 then l else macF a (subF l e) e, satAdd cnt 1)

/-- The spike record (Table OPT-7). -/
def spikeRec (o : Op) (fatal : Bool) (time : Nat) (l e ratio : W32) : Bytes :=
  natLe 2 0xD02 ++ natLe 1 (if fatal then 1 else 0) ++ natLe 1 0xB ++ natLe 4 o.seq.toNat ++ natLe 8 time ++
  natLe 4 l.toNat ++ natLe 4 e.toNat ++ natLe 4 ratio.toNat ++ slice o.desc 0x10 4 ++ List.replicate 32 0

/-- The SEAL record, without its CRC (Table OPT-5; log entry 102); the time is put in when it is written. -/
def sealRec (c : Chamber) (o : Op) (spike valid : Bool) (l : W32) : Bytes :=
  natLe 1 2 ++ natLe 1 ((if spike then 1 else 0) + (if valid then 2 else 0)) ++ natLe 2 1 ++ natLe 4 o.seq.toNat ++
  slice o.desc 0x10 4 ++ natLe 4 c.stepSkips ++ natLe 8 0 ++ natLe 4 c.stepDeltas ++ natLe 4 c.stepUpdates ++
  natLe 4 l.toNat ++ natLe 4 (cget 0xE30 c).toNat ++ natLe 4 c.sealWr.toNat ++ List.replicate 16 0

/-- Steps 3 and 4 of a SEAL: the record, then the sealed step (R274). -/
def writeSeal (n : Nat) (o : Op) (spike valid : Bool) (l : W32) (s : State) : State :=
  modCh n (fun c =>
    let k : AshWait := { seq := o.seq, bytes := sealRec c o spike valid l, isSeal := true }
    let c1 := if df o 0x14 4 / 4 % 2 = 1 then { c with ash := c.ash ++ [k] } else c
    modOp o.seq (fun q => { q with begun := true }) c1) s

/-- What a spike changes: SMK_SPIKE, SPIKE, and the record 0x0D02 (R278). -/
def raiseSpike (n : Nat) (o : Op) (fatal : Bool) (l : W32) (s : State) : State :=
  let c := chOf s n
  let s1 := modCh n (fun d => ccount 0xE24 1 (cmod 0xE04 (fun w => setBit w 1 true)
    (if fatal then optFault 0xD02 o.seq.toNat d else d))) s
  raiseRec (ringOf s1 n) 0xD02 fatal (spikeRec o fatal (now s1) l (cget 0xE30 c) (cget 0xE2C c)) s1

/-- The work of a SEAL (R274). -/
def runSeal (n : Nat) (o : Op) (s : State) : State :=
  let ctl := df o 0x14 4
  if ctl % 2 = 0 then writeSeal n o false false 0 s
  else
    match dLoad n (agent 4) (ctl / 2 % 2) (df o 0x18 8) 4 s with
    | (.error e, t) => accessFault n o.seq 4 e t
    | (.ok lb, t) =>
      let l : W32 := BitVec.ofNat 32 (leNat lb)
      let d := detect (chOf t n) l
      let halt := bit (creg t n 0xE28) 4
      let t1 := modCh n (cset 0xE34 l) t
      if d.1 then
        (if halt then
          retireOp n { o with ended := t1.time } .fault (raiseSpike n o true l (haltFor n o.seq 0xD02 t1))
        else writeSeal n o true true l (raiseSpike n o false l t1))
      else
        writeSeal n o false true l (modCh n (fun c => cset 0xE38 d.2.2 (cset 0xE30 d.2.1 c)) t1)

/-- SEAL: the work of an executing SEAL (R274). -/
def execSeal (ch : Fin 32) (seq : W32) (s : State) : Host.Outcome State Fault Refusal :=
  match executing s ch.val seq [0xB] with
  | some o => if o.begun then .next s else .next (settleAll ch.val (runSeal ch.val o s))
  | none => .next s

/-! ## Register writes (R279) -/

/-- A write of ASH_CFG. -/
def writeAshCfg (n : Nat) (v : W32) (s : State) : State :=
  if isIdle s n && fld v 2 1 != 3 then setCreg n 0xE40 (v &&& 0x000FFF07#32) s else ignored n 0xD08 s

/-- A write of ASH_RING_LO, ASH_RING_HI or ASH_RING_SIZE. -/
def writeAshRing (n reg : Nat) (v : W32) (s : State) : State :=
  if !isIdle s n then ignored n 0xD08 s
  else if reg = 0 then setCreg n 0xE44 (v &&& 0xFFFF0000#32) s
  else if reg = 1 then setCreg n 0xE48 v s
  else if 6 ≤ fld v 4 0 ∧ fld v 4 0 ≤ 30 then setCreg n 0xE4C (v &&& 0x1F#32) s
  else ignored n 0xD08 s

end Sys2Proof.Machine
end

