-- ==== Sys2Proof/Machine/Access.lean ====
section
/-! DEFINITION. Access.lean: what a write of each register does (R7, R8, R11 to R13, R407), writes held behind merge
buffers (R217), and the commands that are writes of one register. -/
namespace Sys2Proof.Machine
open Sys2Proof

/-! ## The APV block (Table STR-11) -/

/-- A write to an APV block: APV_CMD, the IGNORED bit, or a word of APV_REC. -/
def writeApv (sc : Scope) (j : Nat) (v : W32) (s : State) : State :=
  if j = 0 then apvCommand sc (fld v 3 0) s
  else if j = 4 then
    (if bit v 6 then putApv sc { apvOf s sc with ignored := false } s else s)
  else if 0x80 ≤ j ∧ j < 0x140 then
    let a := apvOf s sc
    putApv sc { a with record := Tab.set 0 ((j - 0x80) / 4) v a.record } s
  else s

/-! ## The chamber block -/

/-- The energy record of a chamber (Table PWR-7). -/
def energyRecord (s : State) (n : Nat) : Bytes :=
  natLe 2 0x1004 ++ natLe 2 0 ++ natLe 4 (creg s n 0x10).toNat ++ natLe 8 (now s) ++ natLe 8 (cpair 0x1100 (chOf s n)) ++
  List.replicate 40 0

/-- A write of CHM_JOB (R360): one that changes the value writes the energy record and clears PWR_ENERGY. -/
def writeJob (n : Nat) (v : W32) (s : State) : State :=
  if v = creg s n 0x10 then s
  else
    setCreg n 0x10 v (modCh n (csetPair 0x1100 0) (raiseRec (ringOf s n) 0x1004 false (energyRecord s n) s))

/-- A write of a register without a rule of its own (Table SCP-4). -/
def writePlainChm (n off : Nat) (v : W32) (s : State) : State :=
  match chmSpec off with
  | some r => setCreg n off (r.write (creg s n off) v) s
  | none => s

/-- A write of SWP_CMD (Table ECC-10). -/
def writeSwpCmd (sc : Scope) (v : W32) (s : State) : State :=
  match fld v 1 0 with
  | 1 => swpStart sc s
  | 2 => swpAbort sc s
  | _ => s

/-- A write to the block of operation list `k` (Table OPS-12). -/
def writeList (n k j : Nat) (v : W32) (s : State) : State :=
  match j with
  | 0x0 => writeLbase n k false v s
  | 0x4 => writeLbase n k true v s
  | 0x8 => writeLsize n k v s
  | 0xC => writeTail n k v s
  | _ => s

/-- A write of a word of a chamber block that the image defines. -/
def writeChm (n : Fin 32) (off : Nat) (v : W32) (s : State) : State :=
  let k := n.val
  if 0x40 ≤ off ∧ off < 0xA0 then okeyWrite n ((off - 0x40) / 4) v s
  else if 0x100 ≤ off ∧ off < 0x400 then writeApv (.chamber n) (off - 0x100) v s
  else if 0xA00 ≤ off ∧ off < 0xB00 then writeList k ((off - 0xA00) / 0x20) (off % 0x20) v s
  else if 0xC40 ≤ off ∧ off < 0xD40 ∧ off % 0x20 = 0 then writeStage k ((off - 0xC40) / 0x20) v s
  else if 0x1200 ≤ off ∧ off < 0x1300 then evrWrite (some k) (off - 0x1200) v s
  else if 0x10000 ≤ off ∧ off < 0x14000 then writeCounter k ((off - 0x10000) / 4) false v s
  else if 0x14000 ≤ off ∧ off < 0x18000 then writeCounter k ((off - 0x14000) / 4) true v s
  else
    match off with
    | 0x0 => writeChmCtl k v s
    | 0x10 => writeJob k v s
    | 0x14 => rwaWrite (.chamber n) 0x14 v s
    | 0x700 => if bit v 0 then startInv k s else s
    | 0x910 => writeStrBase k false v s
    | 0x914 => writeStrBase k true v s
    | 0x918 => writeStrCount k v s
    | 0xC00 => writeBankCfg k v s
    | 0xC04 => writeBankAge k v s
    | 0xE40 => writeAshCfg k v s
    | 0xE44 => writeAshRing k 0 v s
    | 0xE48 => writeAshRing k 1 v s
    | 0xE4C => writeAshRing k 2 v s
    | 0x1020 => rawCommand k (fld v 1 0) s
    | 0x1080 => writeSwpCmd (.chamber n) v s
    | _ => writePlainChm k off v s

/-! ## The rest of PF BAR0 -/

/-- A write of a register without a rule of its own. -/
def writePlainGlobal (off : Nat) (v : W32) (s : State) : State :=
  match globalSpec off with
  | some r => gset off (r.write (gget off s) v) s
  | none => s

/-- A write of LNK_PCTL (Table LNK-12): CLR, then RETRAIN. -/
def writePortCtl (p : Nat) (v : W32) (s : State) : State :=
  let s1 := ifdo (bit v 2) (clearPort p) s
  ifdo (bit v 0) (retrainPort p (bit v 1)) s1

/-- A write of ECC_CBIST_CMD (Table ECC-9). -/
def writeCbist (v : W32) (s : State) : State :=
  match fld v 14 13 with
  | 1 => cbistBegin (fld v 5 0) (fld v 11 8) (bit v 12) s
  | 2 => cbistStop s
  | _ => s

/-- A write of PWR_CMD (R337, Table PWR-12): outside Ready and Active it is ignored with event 0x1009. -/
def writePwrCmd (v : W32) (s : State) : State :=
  match fld v 1 0 with
  | 1 => if isReady s then askPower .standby s else eventG 0x1009 [] s
  | 2 => if isReady s then askPower .off s else eventG 0x1009 [] s
  | _ => s

/-- A write of PWR_GRANT (R359): ignored with event 0x1009 where a coordinator governs the cap. -/
def writeGrant (v : W32) (s : State) : State :=
  if s.img.coord.isSome then eventG 0x1009 [] s
  else
    putCap (fld v 10 0) (modPower (fun q => { q with pending := none, capFromGrant := false })
      (gset 0x300C (v &&& 0x7FF#32) s))

/-- A write of LNT_CTL (R399): CANCEL, then ARM. -/
def writeLntCtl (v : W32) (s : State) : State :=
  let s1 := ifdo (bit v 1) cancelLantern s
  ifdo (bit v 0) armLantern s1

/-- A write of MBX_CMD (R381): ignored with event 0x1101 while a command runs. -/
def writeMbx (v : W32) (s : State) : State :=
  if s.mbxCmd.isSome then eventG 0x1101 [] s else { s with mbxCmd := some v }

/-- A write to the debug block of a die (Table STR-17). -/
def writeDbg (die j : Nat) (v : W32) (s : State) : State :=
  if j = 0 then (if bit v 0 then dbgCommand die s else s)
  else
    match specAt dbgRegs j with
    | some r => dbgSet die j (r.write (dbgGet s die j) v) s
    | none => s

/-- A write of a word of PF BAR0 outside the chamber blocks and buffers. -/
def writeGlobal (off : Nat) (v : W32) (s : State) : State :=
  if 0x240 ≤ off ∧ off < 0x2A0 then rwaWrite .module (word off) v s
  else if 0x300 ≤ off ∧ off < 0x600 then writeApv .module (off - 0x300) v s
  else if 0x1100 ≤ off ∧ off < 0x1700 ∧ off % 0x40 = 0 then writePortCtl ((off - 0x1100) / 0x40) v s
  else if 0x4100 ≤ off ∧ off < 0x4200 then evrWrite none (off - 0x4100) v s
  else if 0x400000 ≤ off ∧ off < 0x400040 then writeDbg 0 (off - 0x400000) v s
  else if 0x800000 ≤ off ∧ off < 0x800040 then writeDbg 1 (off - 0x800000) v s
  else
    match off with
    | 0x204 => writeStrCmd v s
    | 0x208 => rwaWrite .module 0x208 v s
    | 0x20C => rwaWrite .module 0x20C v s
    | 0x218 => rwaWrite .module 0x218 v s
    | 0x2030 => writeCbist v s
    | 0x2100 => writeSwpCmd .module v s
    | 0x3004 => writePwrCmd v s
    | 0x300C => writeGrant v s
    | 0x3050 => writeHkTrig v s
    | 0x4014 => if bit v 0 then startWarm 4 s else s
    | 0x5000 => writeLntCtl v s
    | 0x2000000 => writeMbx v s
    | _ => writePlainGlobal off v s

/-! ## Requests (R12, R13, R217, R333, R407) -/

/-- Whether a write is a reset request, which a module-fatal fault does not stop (R333). -/
def isResetWrite (p : Place) : Bool := p == .global 0x4014

/-- A register write takes effect: reserved words and the blocks of undefined chambers discard it. -/
def writeAt (fn : Fn) (off : Nat) (v : W32) (s : State) : State :=
  let p := placeOf s fn off
  if hostFrozen s && !isResetWrite p then s
  else
    match p with
    | .chm n j => if defined s n then writeChm (Fin.ofNat 32 n) j v (countAccess s p) else s
    | .global j => writeGlobal j v (countAccess s p)
    | .nowhere => s

/-- The units of BAR2 writes that are not yet performed: in merge buffers, or waiting for a rotation. -/
def openUnits (s : State) : List Nat :=
  s.merge.map (·.unit) ++ (s.bar2Wait.filter (·.data.isSome)).flatMap (fun r =>
    ((granules 64 r.addr r.len).filter (mapped s)).map (· / 64))

/-- Whether a register write of a function waits for earlier BAR2 writes (R217); BAR2 is the PF's alone. -/
def mustHold (s : State) (fn : Fn) : Bool :=
  fn == 0 && (decide (openUnits s ≠ []) || s.heldWrites.any (fun h => h.fn == fn))

/-- A write of all four bytes of a register word of a function. -/
def postWrite (fn : Fn) (off : Nat) (v : W32) (s : State) : State :=
  if !fnUp s fn then s
  else if mustHold s fn then
    { s with heldWrites := s.heldWrites ++ [{ fn := fn, off := off, v := v, units := openUnits s }] }
  else writeAt fn off v s

/-- REGISTER_WRITE_RELEASE (R217): the oldest held write of a function takes effect once its buffers are gone. -/
def execRegisterWriteRelease (fn : Fn) (s : State) : Host.Outcome State Fault Refusal :=
  match s.heldWrites.find? (fun h => h.fn == fn) with
  | some h =>
    if h.units = [] then .next (writeAt fn h.off h.v { s with heldWrites := s.heldWrites.erase h }) else .next s
  | none => .next s

/-- Whether a word is a register, or reserved (R407). -/
def wordExists (s : State) (p : Place) : Bool :=
  match p with
  | .chm n off => defined s n && chmHas off
  | .global off => globalHas off
  | .nowhere => false

/-- A word that a write enables only in part stays as it is, with event 0x1105 (R407); so does a register of a list that the
chamber does not have, where R214 lets writes be ignored without an event: the model follows R407 (DESIGN CHOICE, log
entry 106). -/
def partialWord (fn : Fn) (off : Nat) (s : State) : State :=
  let p := placeOf s fn off
  if hostFrozen s || !wordExists s p then s
  else
    match p with
    | .chm n _ => event n 0x1105 0 [off] s
    | _ => eventG 0x1105 [off] s

/-- Puts a byte into a buffer (R41, R381). -/
def bufferPut (off : Nat) (b : W8) (s : State) : State :=
  if off < 0x2002000 then { s with mbxReq := Tab.set 0 (off - 0x2001000) b s.mbxReq }
  else if off < 0x2003000 then { s with mbxResp := Tab.set 0 (off - 0x2002000) b s.mbxResp }
  else { s with staging := Tab.set 0 (off - 0x2100000) b s.staging }

/-- The bytes that a request puts into one word; `none` where it leaves one out. -/
def enabledBytes (off : Nat) (data : List (Option W8)) (w : Nat) : List (Option W8) :=
  (List.range 4).map (fun i => if off ≤ w + i then data.getD (w + i - off) none else none)

/-- The enabled bytes of a word go to a buffer. -/
def bufferPutWord (w : Nat) (bs : List (Option W8)) (s : State) : State :=
  forAll (List.range 4) (fun i t => match bs.getD i none with
    | some b => bufferPut (w + i) b t
    | none => t) s

/-- One word of a BAR0 write. -/
def writeWord (fn : Fn) (off : Nat) (data : List (Option W8)) (w : Nat) (s : State) : State :=
  let bs := enabledBytes off data w
  if bs.all (·.isNone) then s
  else if fn = 0 ∧ isBuffer w then (if hostFrozen s then s else bufferPutWord w bs s)
  else if bs.all (·.isSome) then postWrite fn w (word (leNat (bs.map (·.getD 0)))) s
  else partialWord fn w s

/-- A BAR0 write of any length and alignment, word by word in ascending address (R407); one that reaches beyond the
BAR is not claimed. -/
def bar0Write (fn : Fn) (off : Nat) (data : List (Option W8)) (s : State) : State :=
  if !fnUp s fn ∨ barSize fn < off + data.length then s
  else forAll (granules 4 off data.length) (writeWord fn off data) s

/-- REGISTER_WRITE (R407). -/
def execRegisterWrite (fn : Fn) (off : BitVec 26) (data : List (Option W8)) (s : State) : Host.Outcome State Fault Refusal :=
  .next (bar0Write fn off.toNat data s)

/-! ## Commands that are writes of one register -/

/-- A write of a register of a chamber's block: by the PF, or by the VF of that chamber (R13). -/
def chmWrite (fn : Fn) (n : Fin 32) (off : Nat) (v : W32) (s : State) : State :=
  if fn = 0 then postWrite 0 (0x1000000 + 0x40000 * n.val + off) v s
  else if fnCh s fn = some n.val then postWrite fn off v s
  else s

/-- A write of a register of the global block, which only the PF reaches. -/
def globalWrite (fn : Fn) (off : Nat) (v : W32) (s : State) : State := if fn = 0 then postWrite 0 off v s else s

/-- A write of a register that each scope has. -/
def scopeWrite (fn : Fn) (sc : Scope) (chm glob : Nat) (v : W32) (s : State) : State :=
  match sc with
  | .module => globalWrite fn glob v s
  | .chamber n => chmWrite fn n chm v s

/-- All four bytes of a value. -/
def allBytes (v : W32) : List (Option W8) := (natLe 4 v.toNat).map some

/-- ENABLE (R49, R409). -/
def execEnable (fn : Fn) (ch : Fin 32) (s : State) : Host.Outcome State Fault Refusal := .next (chmWrite fn ch 0 1 s)

/-- HALT (R409). -/
def execHalt (fn : Fn) (ch : Fin 32) (s : State) : Host.Outcome State Fault Refusal := .next (chmWrite fn ch 0 2 s)

/-- RESET (R49, R409). -/
def execReset (fn : Fn) (ch : Fin 32) (s : State) : Host.Outcome State Fault Refusal := .next (chmWrite fn ch 0 4 s)

/-- OWNER_LOCK (R53). -/
def execOwnerLock (fn : Fn) (ch : Fin 32) (s : State) : Host.Outcome State Fault Refusal := .next (chmWrite fn ch 0 8 s)

/-- OKEY_WRITE (R53). -/
def execOkeyWrite (fn : Fn) (ch : Fin 32) (i : Fin 24) (v : W32) (s : State) : Host.Outcome State Fault Refusal :=
  .next (chmWrite fn ch (0x40 + 4 * i.val) v s)

/-- RWA_WRITE (R51). -/
def execRwaWrite (fn : Fn) (off : BitVec 26) (v : W32) (s : State) : Host.Outcome State Fault Refusal :=
  .next (bar0Write fn off.toNat (allBytes v) s)

/-- PROPOSE (R52). -/
def execPropose (fn : Fn) (scope : Scope) (s : State) : Host.Outcome State Fault Refusal :=
  .next (scopeWrite fn scope 0x100 0x300 1 s)

/-- SUBMIT (R52). -/
def execSubmit (fn : Fn) (scope : Scope) (s : State) : Host.Outcome State Fault Refusal :=
  .next (scopeWrite fn scope 0x100 0x300 2 s)

/-- CANCEL (R52). -/
def execCancel (fn : Fn) (scope : Scope) (s : State) : Host.Outcome State Fault Refusal :=
  .next (scopeWrite fn scope 0x100 0x300 3 s)

/-- DISCARD (R52). -/
def execDiscard (fn : Fn) (scope : Scope) (s : State) : Host.Outcome State Fault Refusal :=
  .next (scopeWrite fn scope 0x100 0x300 4 s)

/-- DEBUG_READ (R62), by the PF. -/
def execDebugRead (die : Fin 2) (s : State) : Host.Outcome State Fault Refusal :=
  .next (globalWrite 0 (0x400000 + 0x400000 * die.val) 1 s)

/-- DOORBELL (R216). -/
def execDoorbell (fn : Fn) (ch : Fin 32) (list : Fin 8) (v : W32) (s : State) : Host.Outcome State Fault Refusal :=
  .next (chmWrite fn ch (0xA0C + 0x20 * list.val) v s)

/-- INV (R181). -/
def execInv (fn : Fn) (ch : Fin 32) (s : State) : Host.Outcome State Fault Refusal := .next (chmWrite fn ch 0x700 1 s)

/-- COUNTER_WRITE (R227). -/
def execCounterWrite (fn : Fn) (ch : Fin 32) (n : BitVec 12) (v : W32) (s : State) : Host.Outcome State Fault Refusal :=
  .next (chmWrite fn ch (0x10000 + 4 * n.toNat) v s)

/-- COUNTER_ADD (R227). -/
def execCounterAdd (fn : Fn) (ch : Fin 32) (n : BitVec 12) (v : W32) (s : State) : Host.Outcome State Fault Refusal :=
  .next (chmWrite fn ch (0x14000 + 4 * n.toNat) v s)

/-- OPS_LBASE_WRITE (R215). -/
def execOpsLbaseWrite (fn : Fn) (ch : Fin 32) (list : Fin 8) (hi : Bool) (v : W32) (s : State) :
    Host.Outcome State Fault Refusal :=
  .next (chmWrite fn ch (0xA00 + 0x20 * list.val + (if hi then 4 else 0)) v s)

/-- OPS_LSIZE_WRITE (R215). -/
def execOpsLsizeWrite (fn : Fn) (ch : Fin 32) (list : Fin 8) (v : W32) (s : State) : Host.Outcome State Fault Refusal :=
  .next (chmWrite fn ch (0xA08 + 0x20 * list.val) v s)

/-- OPS_STR_BASE_WRITE (R235). -/
def execOpsStrBaseWrite (fn : Fn) (ch : Fin 32) (hi : Bool) (v : W32) (s : State) : Host.Outcome State Fault Refusal :=
  .next (chmWrite fn ch (0x910 + (if hi then 4 else 0)) v s)

/-- OPS_STR_COUNT_WRITE (R235). -/
def execOpsStrCountWrite (fn : Fn) (ch : Fin 32) (v : W32) (s : State) : Host.Outcome State Fault Refusal :=
  .next (chmWrite fn ch 0x918 v s)

/-- PIP_BANK_CFG_WRITE (R258). -/
def execPipBankCfgWrite (fn : Fn) (ch : Fin 32) (v : W32) (s : State) : Host.Outcome State Fault Refusal :=
  .next (chmWrite fn ch 0xC00 v s)

/-- PIP_BANK_AGE_WRITE (R258). -/
def execPipBankAgeWrite (fn : Fn) (ch : Fin 32) (v : W32) (s : State) : Host.Outcome State Fault Refusal :=
  .next (chmWrite fn ch 0xC04 v s)

/-- PIP_STAGE_WRITE (R258). -/
def execPipStageWrite (fn : Fn) (ch : Fin 32) (k : Fin 8) (v : W32) (s : State) : Host.Outcome State Fault Refusal :=
  .next (chmWrite fn ch (0xC40 + 0x20 * k.val) v s)

/-- ASH_CFG_WRITE (R279). -/
def execAshCfgWrite (fn : Fn) (ch : Fin 32) (v : W32) (s : State) : Host.Outcome State Fault Refusal :=
  .next (chmWrite fn ch 0xE40 v s)

/-- ASH_RING_WRITE (R279): ASH_RING_LO, ASH_RING_HI or ASH_RING_SIZE. -/
def execAshRingWrite (fn : Fn) (ch : Fin 32) (reg : Fin 3) (v : W32) (s : State) : Host.Outcome State Fault Refusal :=
  .next (chmWrite fn ch (0xE44 + 4 * reg.val) v s)

/-- CHM_JOB_WRITE (R360). -/
def execChmJobWrite (fn : Fn) (ch : Fin 32) (v : W32) (s : State) : Host.Outcome State Fault Refusal :=
  .next (chmWrite fn ch 0x10 v s)

/-- RAW_READ (R323). -/
def execRawRead (fn : Fn) (ch : Fin 32) (s : State) : Host.Outcome State Fault Refusal := .next (chmWrite fn ch 0x1020 1 s)

/-- RAW_WRITE (R323). -/
def execRawWrite (fn : Fn) (ch : Fin 32) (s : State) : Host.Outcome State Fault Refusal := .next (chmWrite fn ch 0x1020 2 s)

/-- SWP_START (R316). -/
def execSwpStart (fn : Fn) (scope : Scope) (s : State) : Host.Outcome State Fault Refusal :=
  .next (scopeWrite fn scope 0x1080 0x2100 1 s)

/-- SWP_ABORT (R319). -/
def execSwpAbort (fn : Fn) (scope : Scope) (s : State) : Host.Outcome State Fault Refusal :=
  .next (scopeWrite fn scope 0x1080 0x2100 2 s)

/-- Four bytes written at any alignment to a ring's block (R407). -/
def ringBytes (fn : Fn) (sc : Scope) (off : Nat) (v : W32) (s : State) : State :=
  match sc with
  | .module => if fn = 0 then bar0Write 0 (0x4100 + off) (allBytes v) s else s
  | .chamber n =>
    if fn = 0 then bar0Write 0 (0x1000000 + 0x40000 * n.val + 0x1200 + off) (allBytes v) s
    else if fnCh s fn = some n.val then bar0Write fn (0x1200 + off) (allBytes v) s
    else s

/-- EVR_CFG_WRITE (R378): a write to an event-ring block. -/
def execEvrCfgWrite (fn : Fn) (scope : Scope) (off : BitVec 6) (v : W32) (s : State) : Host.Outcome State Fault Refusal :=
  if off.toNat % 4 = 0 then .next (scopeWrite fn scope (0x1200 + off.toNat) (0x4100 + off.toNat) v s)
  else .next (ringBytes fn scope off.toNat v s)

/-- RELOAD (R40). -/
def execReload (s : State) : Host.Outcome State Fault Refusal := .next (globalWrite 0 0x204 1 s)

/-- PROGRAM (R41). -/
def execProgram (slot : BitVec 2) (s : State) : Host.Outcome State Fault Refusal :=
  .next (globalWrite 0 0x204 (word (2 + 16 * slot.toNat)) s)

/-- RETRAIN (R303). -/
def execRetrain (port : Fin 24) (full : Bool) (s : State) : Host.Outcome State Fault Refusal :=
  .next (globalWrite 0 (0x1100 + 0x40 * port.val) (if full then 3 else 1) s)

/-- CLR (R305). -/
def execClr (port : Fin 24) (s : State) : Host.Outcome State Fault Refusal :=
  .next (globalWrite 0 (0x1100 + 0x40 * port.val) 4 s)

/-- PWR_GRANT_WRITE (R359). -/
def execPwrGrantWrite (v : W32) (s : State) : Host.Outcome State Fault Refusal := .next (globalWrite 0 0x300C v s)

/-- CBIST_START (R328). -/
def execCbistStart (cluster : BitVec 6) (tests : BitVec 4) (update : Bool) (s : State) : Host.Outcome State Fault Refusal :=
  .next (globalWrite 0 0x2030 (word (cluster.toNat + 256 * tests.toNat + 4096 * one update + 8192)) s)

/-- CBIST_ABORT (R329). -/
def execCbistAbort (s : State) : Host.Outcome State Fault Refusal := .next (globalWrite 0 0x2030 0x4000 s)

/-- PWR_CMD_STANDBY (R337). -/
def execPwrCmdStandby (s : State) : Host.Outcome State Fault Refusal := .next (globalWrite 0 0x3004 1 s)

/-- PWR_CMD_OFF (R337). -/
def execPwrCmdOff (s : State) : Host.Outcome State Fault Refusal := .next (globalWrite 0 0x3004 2 s)

/-- HK_TRIG (R362). -/
def execHkTrig (v : W32) (s : State) : Host.Outcome State Fault Refusal := .next (globalWrite 0 0x3050 v s)

/-- MOD_RST_WARM (R389). -/
def execModRstWarm (s : State) : Host.Outcome State Fault Refusal := .next (globalWrite 0 0x4014 1 s)

/-- ARM (R399). -/
def execArm (s : State) : Host.Outcome State Fault Refusal := .next (globalWrite 0 0x5000 1 s)

/-- LNT_CANCEL (R399). -/
def execLntCancel (s : State) : Host.Outcome State Fault Refusal := .next (globalWrite 0 0x5000 2 s)

/-- GET_INFO (R381): a write of MBX_CMD. -/
def execGetInfo (len : W16) (s : State) : Host.Outcome State Fault Refusal :=
  .next (globalWrite 0 0x2000000 (word (1 + 65536 * len.toNat)) s)

/-- GET_FRU (R381). -/
def execGetFru (len : W16) (s : State) : Host.Outcome State Fault Refusal :=
  .next (globalWrite 0 0x2000000 (word (2 + 65536 * len.toNat)) s)

/-- MBX_GET_MEASUREMENTS (R381). -/
def execMbxGetMeasurements (len : W16) (s : State) : Host.Outcome State Fault Refusal :=
  .next (globalWrite 0 0x2000000 (word (3 + 65536 * len.toNat)) s)

end Sys2Proof.Machine
end

