-- ==== Sys2Proof/Machine/Operands.lean ====
section
/-! DEFINITION. Operands.lean: the fields of an instruction of a thread (R162, Tables THR-7 and THR-8), its
operand codes (R143), register windows (R144), core-space addresses (R168 to R170), and the choice of the
path that issues (R141). -/
namespace Sys2Proof.Machine
open Sys2Proof

/-! ## Instruction words (Table THR-7) -/

/-- Bits [hi:lo] of an instruction word. -/
def ib (w : W64) (hi lo : Nat) : Nat := w.toNat / 2 ^ lo % 2 ^ (hi + 1 - lo)

/-- OPC. -/
def iOpc (w : W64) : Nat := ib w 7 0
/-- Operand code D. -/
def iD (w : W64) : Nat := ib w 13 8
/-- Operand code A. -/
def iA (w : W64) : Nat := ib w 19 14
/-- TYPE of the R and I formats; SIZE or FUNC of the M format. -/
def iTy (w : W64) : Nat := ib w 23 20
/-- MOD[7:0]. -/
def iMod (w : W64) : Nat := ib w 31 24
/-- SPACE of the M format. -/
def iSpace (w : W64) : Nat := ib w 25 24
/-- SCOPE of the M format. -/
def iScope (w : W64) : Nat := ib w 27 26
/-- ORDER of the M format. -/
def iOrder (w : W64) : Nat := ib w 29 28
/-- HINT of the M format. -/
def iHint (w : W64) : Nat := ib w 31 30
/-- Operand code B. -/
def iB (w : W64) : Nat := ib w 37 32
/-- Operand code C. -/
def iC (w : W64) : Nat := ib w 43 38
/-- IMM of the I and B formats. -/
def iImm (w : W64) : W32 := BitVec.ofNat 32 (ib w 63 32)
/-- OFFSET of the M format, signed bytes. -/
def iOff (w : W64) : Int := (BitVec.ofNat 24 (ib w 63 40)).toInt

/-- Whether an OPC with bit 7 = 0 is in Table THR-8. -/
def opcBase (c : Nat) : Bool :=
  decide ((0x01 ≤ c ∧ c ≤ 0x13) ∨ c = 0x1F ∨ (0x20 ≤ c ∧ c ≤ 0x2A) ∨ (0x30 ≤ c ∧ c ≤ 0x32) ∨
    (0x38 ≤ c ∧ c ≤ 0x3C) ∨ c = 0x3F ∨ (0x40 ≤ c ∧ c ≤ 0x48) ∨ (0x50 ≤ c ∧ c ≤ 0x58) ∨ c = 0x60 ∨ c = 0x61)

/-- Whether a base has an I form (Table THR-8). -/
def opcI (c : Nat) : Bool :=
  decide ((0x01 ≤ c ∧ c ≤ 0x04) ∨ (0x06 ≤ c ∧ c ≤ 0x10) ∨ c = 0x13 ∨ (0x20 ≤ c ∧ c ≤ 0x22) ∨ (0x25 ≤ c ∧ c ≤ 0x27))

/-- Whether an instruction word has the I format. -/
def isI (w : W64) : Bool := decide (0x80 ≤ iOpc w)

/-- Whether an OPC is legal (R163). -/
def opcLegal (c : Nat) : Bool := if c < 0x80 then opcBase c else opcI (c - 0x80)

/-- Whether a base has the M format. -/
def opcM (c : Nat) : Bool := decide (0x40 ≤ c ∧ c ≤ 0x48)

/-- Whether a base has the B format. -/
def opcB (c : Nat) : Bool := decide ((0x50 ≤ c ∧ c ≤ 0x58) ∨ c = 0x60)

/-- Whether the reserved fields of an instruction word are 0 and its TYPE and HINT exist (R162). -/
def fieldsOk (w : W64) : Bool :=
  let c := iOpc w
  if opcM c then ib w 39 38 == 0 && !(iSpace w == 3 && iHint w == 3)
  else if opcB c then ib w 31 20 == 0
  else decide (iTy w ≤ 8) && (isI w || ib w 63 44 == 0)

/-! ## Operand codes (Table THR-2) -/

/-- Whether a thread may name an operand code (R143). -/
def codeOk (t : Thread) (dest : Bool) (c : Nat) : Bool :=
  if c < 40 then true
  else if c < 48 then t.trap
  else if c ≤ 60 then !dest
  else c == 63

/-- The register of a pair after code `c`; ZERO is both registers of its pair. -/
def nextCode (c : Nat) : Nat := if c = 63 then 63 else c + 1

/-- Where a register code lies in `Thread.regs` under window depth `d` (R144). -/
def regIdx (d : Nat) (t : Thread) (c : Nat) : Nat :=
  if c < 8 then c
  else if c < 40 then 8 + 16 * ((t.win + (c - 8) / 16) % (d + 1)) + (c - 8) % 16
  else 120 + (c - 40)

/-- What the special registers of a thread read (Table THR-2). -/
structure Special where
  depth : Nat
  time : W64
  index : Nat
  block : Nat
  blocks : Nat
  arg : Nat
  seed : Nat
  stream : Nat
  active : Nat
  deriving DecidableEq, Repr

/-- A number's low word and high word. -/
def lo32 (n : Nat) : W32 := BitVec.ofNat 32 n
/-- The high word. -/
def hi32 (n : Nat) : W32 := BitVec.ofNat 32 (n / 2 ^ 32)

/-- The value of an operand code in thread `i`. -/
def readCode (x : Special) (i : Nat) (t : Thread) (c : Nat) : W32 :=
  if c < 48 then Tab.get 0 (regIdx x.depth t c) t.regs
  else match c with
    | 48 => lo32 i
    | 49 => lo32 x.index
    | 50 => lo32 x.block
    | 51 => lo32 x.blocks
    | 52 => lo32 x.arg
    | 53 => hi32 x.arg
    | 54 => lo32 x.seed
    | 55 => hi32 x.seed
    | 56 => lo32 x.stream
    | 57 => lo32 x.time.toNat
    | 58 => t.timeHi
    | 59 => lo32 x.active
    | 60 => lo32 t.depth
    | _ => 0

/-- A read of TIME_LO latches TIME_HI for the thread (Table THR-2, R28). -/
def latchTime (x : Special) (c : Nat) (t : Thread) : Thread :=
  if c = 57 then { t with timeHi := hi32 x.time.toNat } else t

/-- Reads operand codes in order. -/
def readCodes (x : Special) (i : Nat) : List Nat → Thread → List W32 × Thread
  | [], t => ([], t)
  | c :: l, t =>
    let r := readCodes x i l (latchTime x c t)
    (readCode x i t c :: r.1, r.2)

/-- Writes an operand code; writes to ZERO and to read-only codes are discarded. -/
def writeCode (d : Nat) (c : Nat) (v : W32) (t : Thread) : Thread :=
  if c < 48 then { t with regs := Tab.set 0 (regIdx d t c) v t.regs, bad := Tab.set false (regIdx d t c) false t.bad }
  else t

/-- Whether a code names a register whose parity fails (R314). -/
def badCode (d : Nat) (t : Thread) (c : Nat) : Bool := decide (c < 48) && Tab.get false (regIdx d t c) t.bad

/-- Writes several operand codes. -/
def writeCodes (d : Nat) (cs : List Nat) (vs : List W32) (t : Thread) : Thread :=
  (cs.zip vs).foldl (fun u p => writeCode d p.1 p.2 u) t

/-- The 64-bit pair at a code; the low register is read first, so TIME_LO latches the TIME_HI of its pair. -/
def readPair (x : Special) (i : Nat) (t : Thread) (c : Nat) : Nat :=
  (readCode x i t c).toNat + 2 ^ 32 * (readCode x i (latchTime x c t) (nextCode c)).toNat

/-- Writes a result at a code: one register, or a pair for a 64-bit result. -/
def writeResult (d c : Nat) (pair : Bool) (v : W64) (t : Thread) : Thread :=
  let u := writeCode d c (lo32 v.toNat) t
  if pair ∧ c ≠ 63 then writeCode d (nextCode c) (hi32 v.toNat) u else u

/-! ## Groups -/

/-- Changes the resident group at a place, if there is one. -/
def modGroup (loc : Loc) (f : Group → Group) (s : State) : State :=
  match groupAt s loc.core.val loc.slot.val with
  | some g => setGroup loc.core.val loc.slot.val (some (f g)) s
  | none => s

/-- Thread `i` of a group. -/
def threadAt (g : Group) (i : Nat) : Thread := g.threads.getD i { live := false }

/-- Changes thread `i` of a group. -/
def modThread (i : Nat) (f : Thread → Thread) (g : Group) : Group := { g with threads := g.threads.modify i f }

/-- The threads of a group with their indices. -/
def indexed (g : Group) : List (Nat × Thread) := (List.range g.threads.length).map (fun i => (i, threadAt g i))

/-- The KERNEL of a group. -/
def groupOp (s : State) (g : Group) : Op :=
  (opOf (chOf s g.ch) g.seq).getD { seq := g.seq, list := g.alcove, entry := 0, desc := [] }

/-- What the special registers of a group's threads read on a path. -/
def specialOf (s : State) (g : Group) (path : List Nat) : Special :=
  let o := groupOp s g
  { depth := (chOf s g.ch).winDepth, time := s.time, index := g.index, block := g.block, blocks := kBlocks o,
    arg := at_ o.desc 0x20 8, seed := at_ o.desc 0x38 8, stream := at_ o.desc 0x40 4,
    active := (path.map (fun i => 2 ^ i)).sum }

/-! ## Paths (R141) -/

/-- Whether a live thread keeps its path apart from a path that issues: it waits at BAR, sleeps, or waits
for acknowledgements (log entry 33). -/
def parked (t : Thread) : Bool :=
  match t.wait with
  | .bar => true
  | .sleep _ => true
  | .ack _ => true
  | _ => false

/-- The threads of a group that share a program counter and a call depth with a thread. -/
def pathOf (g : Group) (u : Thread) : List Nat :=
  ((indexed g).filter (fun p => p.2.live && !parked p.2 && p.2.pc == u.pc && p.2.depth == u.depth)).map (·.1)

/-- Whether a path is runnable: none of its threads waits for a result. -/
def pathRuns (g : Group) (path : List Nat) : Bool := path.all (fun i => (threadAt g i).wait == .run)

/-- The runnable paths of a group, each once, with its call depth, program counter and age. -/
def paths (g : Group) : List (List Nat) :=
  (((indexed g).filter (fun p => p.2.live && !parked p.2)).map (fun p => pathOf g p.2)).eraseDups.filter (pathRuns g)

/-- The slots that a path has waited. -/
def pathAge (g : Group) (p : List Nat) : Nat := (p.map (fun i => (threadAt g i).age)).foldl max 0

/-- Whether path `a` goes before path `b`. -/
def pathBefore (g : Group) (a b : List Nat) : Bool :=
  let x := threadAt g (a.headD 0)
  let y := threadAt g (b.headD 0)
  let late := fun (p : List Nat) => decide (64 ≤ pathAge g p)
  if late a && late b && pathAge g a != pathAge g b then decide (pathAge g b < pathAge g a)
  else if late a != late b then late a
  else decide (x.depth < y.depth ∨ (x.depth = y.depth ∧ x.pc.toNat < y.pc.toNat))

/-- The path that issues: lowest call depth, then lowest program counter, a path that has waited 64 slots
before every other. -/
def choosePath (g : Group) : Option (List Nat) :=
  (paths g).foldl (fun (m : Option (List Nat)) p =>
    match m with
    | none => some p
    | some q => if pathBefore g p q then some p else some q) none

/-- The ages after a slot: 0 on the path that issued, one more on every other runnable path. -/
def turnAges (path : List Nat) (g : Group) : Group :=
  let waiting := ((paths g).filter (fun p => p != path)).flatten
  { g with threads := (indexed g).map (fun p =>
      if path.contains p.1 then { p.2 with age := 0 }
      else if waiting.contains p.1 then { p.2 with age := p.2.age + 1 }
      else p.2) }

/-! ## Core space (Table MEM-2) -/

/-- Where a core-space access lies. -/
structure CorePlace where
  core : Nat
  off : Nat
  tile : Bool
  deriving DecidableEq, Repr

/-- Where `len` bytes at a core-space address lie; `none` outside the used parts (R168, R170). -/
def corePlace (s : State) (loc : Loc) (g : Group) (a len : Nat) : Option CorePlace :=
  if a + len ≤ 0x20000 then some ⟨loc.core.val, a, true⟩
  else if 0x100000 ≤ a ∧ a + len ≤ 0x100000 + g.shared then some ⟨g.home, 0x30000 + g.sharedOff + (a - 0x100000), false⟩
  else if 0x200000 ≤ a ∧ a + len ≤ 0x200000 + 32 * g.spill then
    some ⟨loc.core.val, 0x30000 + g.spillOff + (a - 0x200000), false⟩
  else if 0x40000000 ≤ a ∧ a + len ≤ 0x48000000 then
    match Tab.get none g.alcove (chOf s g.ch).held with
    | some h =>
      match h.cores[(a - 0x40000000) / 0x20000]? with
      | some core => some ⟨core, (a - 0x40000000) % 0x20000, true⟩
      | none => none
    | none => none
  else none

end Sys2Proof.Machine
end

