-- ==== Sys2Proof/Machine/Issue.lean ====
section
/-! DEFINITION. Issue.lean: how a thread instruction issues (R137, R141), group faults (R164), the end of
threads, groups and blocks (R134, R169), the barrier (R154), and results that return (R141). -/
namespace Sys2Proof.Machine
open Sys2Proof

/-! ## Group faults (R164) -/

/-- What a group fault reports: code, lowest faulting thread, access address, and the access fault. -/
structure GFault where
  code : Nat
  thread : Nat
  addr : Nat := 0
  acc : Option MErr := none
  deriving DecidableEq, Repr

/-- THR_STAT and the THR_FAULT registers (Table THR-9). -/
def thrFault (loc : Loc) (g : Group) (f : GFault) (c : Chamber) : Chamber :=
  let first := noCode c 0x600
  let t := threadAt g f.thread
  let c1 := cmod 0x600 (fun w => firstCode f.code (setBit w 0 true)) c
  if first then
    cset 0x61C (BitVec.ofNat 32 (g.block % 2 ^ 24 + g.index * 2 ^ 24))
      (csetPair 0x614 f.addr (csetPair 0x60C t.pc.toNat
        (cset 0x608 (BitVec.ofNat 32 (loc.core.val + loc.core.val / 16 * 2 ^ 10 + loc.slot.val * 2 ^ 16 +
            f.thread * 2 ^ 20 + (if t.trap then 2 ^ 25 else 0) + dieOfCore loc.core.val * 2 ^ 26))
          (cset 0x604 g.seq c1))))
  else c1

/-- A group fault: the KERNEL retires FAULT and the chamber halts with the code (R164). -/
def groupFault (loc : Loc) (g : Group) (f : GFault) (s : State) : State :=
  failOp g.ch g.seq .fault f.code [] (fun c =>
    let c1 := thrFault loc g f c
    match f.acc with
    | some e => memFault { e with addr := f.addr } g.seq.toNat 0 c1
    | none => c1) s

/-! ## The end of threads -/

/-- The resident groups of a block, with their places. -/
def blockGroups (s : State) (n : Nat) (seq : W32) (block : Nat) : List (Nat × Group) :=
  s.groups.filterMap (fun e => match e.2 with
    | some g => if g.ch = n ∧ g.seq = seq ∧ g.block = block then some (e.1, g) else none
    | none => none)

/-- Changes every group of a block. -/
def modBlock (n : Nat) (seq : W32) (block : Nat) (f : Group → Group) (s : State) : State :=
  { s with groups := s.groups.map (fun e => match e.2 with
      | some g => if g.ch = n ∧ g.seq = seq ∧ g.block = block then (e.1, some (f g)) else e
      | none => e) }

/-- Releases the barrier of a block once every live thread of it waits there (R154). -/
def releaseBar (n : Nat) (seq : W32) (block : Nat) (s : State) : State :=
  let ts := (blockGroups s n seq block).flatMap (fun e => e.2.threads.filter (·.live))
  if !ts.isEmpty && ts.all (fun t => t.wait == .bar) then
    modBlock n seq block (fun g => { g with threads := g.threads.map (fun t =>
      if t.live then { t with wait := .run } else t) }) s
  else s

/-- Removes the groups of a block whose threads have all ended; when none is left the block has ended:
its space is freed, and the KERNEL's work is done with its last block (R134, R136, R169). -/
def endBlock (n : Nat) (seq : W32) (block : Nat) (s : State) : State :=
  let beyond := ((blockGroups s n seq block).filter (fun e => !e.2.threads.any (·.live))).map (·.1)
  if beyond.isEmpty then s
  else
    let s1 := { s with groups := Tab.drop (fun k => beyond.contains k) s.groups }
    if !(blockGroups s1 n seq block).isEmpty then s1
    else
      let s2 := { s1 with allocs := s1.allocs.filter (fun a => !(a.ch == n && a.seq == seq && a.block == block)) }
      setOp n seq (fun o => { o with blocksEnded := o.blocksEnded + 1,
                                     begun := o.begun || kBlocks o == o.blocksEnded + 1 }) s2

/-- What follows a change of a block's threads: barrier, end of groups, retirement. -/
def settleBlock (g : Group) (s : State) : State :=
  settleAll g.ch (endBlock g.ch g.seq g.block (releaseBar g.ch g.seq g.block s))

/-- Thread `i` of the group at a place ends. -/
def endThread (loc : Loc) (i : Nat) (s : State) : State :=
  modGroup loc (modThread i (fun t => { t with live := false })) s

/-! ## Issue -/

/-- What an instruction acts on: place, group as it stood, path, instruction word. -/
structure Iss where
  loc : Loc
  g : Group
  path : List Nat
  w : W64
  deriving DecidableEq, Repr

/-- Thread `i` of an issuing group. -/
def Iss.thread (x : Iss) (i : Nat) : Thread := threadAt x.g i

/-- The special registers on an issuing path. -/
def Iss.special (x : Iss) (s : State) : Special := specialOf s x.g x.path

/-- The core of an issuing group as an agent of memory accesses. -/
def Iss.agent (x : Iss) : Agent := { code := 0, core := some x.loc.core.val }

/-- Window depth of the issuing group's chamber. -/
def Iss.depth (x : Iss) (s : State) : Nat := (chOf s x.g.ch).winDepth

/-- The lowest thread of a path for which a check gives a fault. -/
def firstFault (x : Iss) (check : Nat → Option GFault) : Option GFault := x.path.findSome? check

/-- Changes every thread of the path, and moves it past the instruction. -/
def advance (x : Iss) (f : Nat → Thread → Thread) (s : State) : State :=
  modGroup x.loc (fun g => x.path.foldl (fun h i =>
    modThread i (fun t => f i { t with pc := t.pc + 8 }) h) g) s

/-- Fault 0x0802 of the path's lowest thread. -/
def illegal (x : Iss) (s : State) : State := groupFault x.loc x.g { code := 0x802, thread := x.path.headD 0 } s

/-- The fault of a path's operand codes: one that a thread may not name (0x0802), or one that it reads and whose
parity fails (0x0F0B, R314). -/
def codeFault (x : Iss) (s : State) (srcs dsts : List Nat) : Option GFault :=
  firstFault x (fun i =>
    let t := x.thread i
    if !(srcs.all (codeOk t false) && dsts.all (codeOk t true)) then some { code := 0x802, thread := i }
    else if srcs.any (badCode (x.depth s) t) then some { code := 0xF0B, thread := i, acc := some { code := 0xF0B } }
    else none)

/-- Reads the instruction at an address through the core's instruction cache (R135): a line that is not there is
filled, and goes in before the others; 256 lines of 64 bytes stay (log entry 34). -/
def fetchIns (n core : Nat) (pc : W64) (s : State) : Res Bytes :=
  let la := pc.toNat / 64 * 64
  let lines := Tab.get [] core s.icache
  match lines.find? (fun l => l.addr == la) with
  | some l =>
    if l.bad then (.error { code := 0xF0B, addr := pc.toNat }, s) else (.ok (slice l.bytes (pc.toNat % 64) 8), s)
  | none =>
    match bulkLoad n { code := 4, core := some core } la 64 true s with
    | (.error e, t) => (.error { e with addr := pc.toNat }, t)
    | (.ok bs, t) =>
      (.ok (slice bs (pc.toNat % 64) 8),
       { t with icache := Tab.set [] core (({ addr := la, bytes := bs } :: lines).take 256) t.icache })

/-- Counts an issue on its port (Tables THR-8, OBS-2). -/
def countIssue (x : Iss) (s : State) : State :=
  let c := iOpc x.w % 0x80
  let portB := decide ((0x38 ≤ c ∧ c ≤ 0x3C) ∨ 0x40 ≤ c)
  bumpCh x.g.ch 5 1 (bump (x.loc.core.val / 16) (if portB then 7 else 6) 1 s)

/-! ## What an instruction waits for before it issues (R99, R153, R158) -/

/-- An integer modulo 2^n. -/
def wrapTo (n : Nat) (v : Int) : Nat := (v % (2 ^ n : Int)).toNat

/-- The access address of thread `i` (R149, Table THR-7). -/
def memAddr (x : Iss) (s : State) (i : Nat) : Nat :=
  let sp := x.special s
  if iSpace x.w = 0 then wrapTo 32 (((readCode sp i (x.thread i) (iA x.w)).toNat : Int) + iOff x.w)
  else wrapTo 64 ((readPair sp i (x.thread i) (iA x.w) : Int) + iOff x.w)

/-- Whether a matrix operation on a core has not yet finished with its tile (R99). -/
def tileBusy (s : State) (n alcove core : Nat) : Bool :=
  let c := chOf s n
  c.ops.any (fun o => o.list == alcove && (opType o == 1 || opType o == 2) &&
    (o.state == .held || (o.state == .executing && !o.begun)) &&
    ((opCores c alcove).take (tileCount o * opP c o)).contains core)

/-- Whether a thread's access at an address of core space waits for a tile (R99). -/
def tileWaits (x : Iss) (s : State) (a : Nat) : Bool :=
  match corePlace s x.loc x.g a 1 with
  | some p => p.tile && tileBusy s x.g.ch x.g.alcove p.core
  | none => false

/-- Whether a thread of the group has a remote store that its owner has not acknowledged. -/
def openStore (s : State) (loc : Loc) (g : Group) (i : Nat) : Bool :=
  (chOf s g.ch).reqs.any (fun r => r.kind == .store && r.waiters.any (fun w => w.loc == loc && w.thread == i))

/-- Whether earlier accesses of a thread are not yet performed at device scope, or at system scope (R153): a remote RED
that has not entered its line (R156), a remote store that is not acknowledged. -/
def openAccess (s : State) (loc : Loc) (g : Group) (system : Bool) (i : Nat) : Bool :=
  openAdd (chOf s g.ch) loc i || (system && openStore s loc g i)

/-- Whether an instruction of a path waits before it issues (log entry 41): an LD, ST, ATOM or RED for a tile (R99),
one with release order at device or system scope (R153), and CNTADD (R158), for its threads' earlier accesses. -/
def mustWait (x : Iss) (s : State) : Bool :=
  let c := iOpc x.w
  let mem := c == 0x40 || c == 0x41 || c == 0x43 || c == 0x44
  (mem && iSpace x.w == 0 && x.path.any (fun i => tileWaits x s (memAddr x s i))) ||
  ((mem || c == 0x42) && decide (2 ≤ iOrder x.w ∧ 2 ≤ iScope x.w) &&
    x.path.any (openAccess s x.loc x.g (iScope x.w == 3))) ||
  (c == 0x60 && x.path.any (openAccess s x.loc x.g false))

/-- The threads of a path wait, and the slot is over: another path of the group may take the next one (R141). -/
def holdPath (x : Iss) (s : State) : State :=
  modGroup x.loc (fun g => x.path.foldl (fun h i => modThread i (fun t => { t with wait := .hold }) h) (turnAges x.path g)) s

/-- Issues the next instruction of the group at a place, if it is one of those that `mine` names; a
reserved OPC is a group fault whatever command finds it (R163, R164). -/
def issue (loc : Loc) (mine : W64 → Bool) (act : Iss → State → State) (s : State) : State :=
  match groupAt s loc.core.val loc.slot.val with
  | none => s
  | some g =>
    match choosePath g with
    | none => s
    | some path =>
      let pc := (threadAt g (path.headD 0)).pc
      if pc.toNat % 8 ≠ 0 then groupFault loc g { code := 0x805, thread := path.headD 0, addr := pc.toNat } s
      else
        match fetchIns g.ch loc.core.val pc s with
        | (.error e, t) =>
          if e.code = 0xF0B then groupFault loc g { code := 0xF0B, thread := path.headD 0, acc := some e } t
          else accessFault g.ch g.seq 4 e t
        | (.ok bs, t) =>
          let w := BitVec.ofNat 64 (leNat bs)
          let x : Iss := { loc := loc, g := g, path := path, w := w }
          if !opcLegal (iOpc w) then illegal x t
          else if !mine w then s
          else if !fieldsOk w then illegal x t
          else if mustWait x t then holdPath x t
          else act x (countIssue x (modGroup loc (turnAges path) t))

/-- The OPC of an instruction, with or without an I form. -/
def isOp (c : Nat) (w : W64) : Bool := decide (iOpc w % 0x80 = c)

/-! ## Register instructions -/

/-- A register instruction: extra field checks, the operand codes it reads and writes, and its results
from the values read and a free value. -/
structure Alu where
  ok : W64 → Bool := fun _ => true
  srcs : W64 → List Nat
  dsts : W64 → List Nat := fun w => [iD w]
  res : W64 → List W32 → W64 → List W32

/-- Runs a register instruction on the threads of a path, in order; each takes one free value, which
only a result that the manual does not state uses. -/
def aluThreads (a : Alu) (x : Iss) (s : State) : State :=
  let sp := x.special s
  let d := x.depth s
  x.path.foldl (fun t i =>
    let f := fresh t
    modGroup x.loc (modThread i (fun th =>
      let r := readCodes sp i (a.srcs x.w) th
      writeCodes d (a.dsts x.w) (a.res x.w r.1 f.1) { r.2 with pc := th.pc + 8 })) f.2) s

/-- A register instruction (R163). -/
def alu (a : Alu) (x : Iss) (s : State) : State :=
  if !a.ok x.w then illegal x s
  else
    match codeFault x s (a.srcs x.w) (a.dsts x.w) with
    | some f => groupFault x.loc x.g f s
    | none => aluThreads a x s

/-- What a command of a register instruction does. -/
def runAlu (loc : Loc) (c : Nat) (a : Alu) (s : State) : Host.Outcome State Fault Refusal :=
  .next (issue loc (isOp c) (alu a) s)

/-! ## Results -/

/-- The value that a load of `len` bytes gives; the upper bits of a register that a 1 B or 2 B load
does not fill are not stated (log entry 35). -/
def loadValue (len : Nat) (bs : Bytes) (free : W64) : W64 :=
  let v := leNat (slice bs 0 len)
  if len < 4 then BitVec.ofNat 64 (v + free.toNat % 2 ^ 32 / 2 ^ (8 * len) * 2 ^ (8 * len)) else BitVec.ofNat 64 v

/-- A result has come for a thread that waits for one. -/
def deliverTo (loc : Loc) (i : Nat) (v : W64) (s : State) : State :=
  modGroup loc (modThread i (fun t =>
    match t.wait with
    | .mem d p none => { t with wait := .mem d p (some v) }
    | _ => t)) s

/-- MEMORY_RESULT_RETURN (R141): a result that is there is written, and the thread waits no longer. -/
def execMemoryResultReturn (loc : Loc) (thread : Fin 32) (s : State) : Host.Outcome State Fault Refusal :=
  .next (match groupAt s loc.core.val loc.slot.val with
    | some g =>
      match (threadAt g thread.val).wait with
      | .mem d p (some v) =>
        modGroup loc (modThread thread.val (fun t =>
          writeResult (chOf s g.ch).winDepth d p v { t with wait := .run })) s
      | _ => s
    | none => s)

/-- SLEEP_END (R162). -/
def execSleepEnd (loc : Loc) (thread : Fin 32) (s : State) : Host.Outcome State Fault Refusal :=
  .next (modGroup loc (modThread thread.val (fun t =>
    match t.wait with
    | .sleep u => if u.toNat ≤ now s then { t with wait := .run } else t
    | _ => t)) s)

/-! ## KERNEL (R133 to R136) -/

/-- Places the next block of an executing KERNEL, if it has one and its turn has come. -/
def placeNext (n : Nat) (o : Op) (s : State) : State :=
  if o.blocksPlaced < kBlocks o ∧ earlierPlaced (chOf s n) o then (placeBlock n o s).getD s else s

/-- KERNEL: the executing KERNEL places its first block (R134). -/
def execKernel (ch : Fin 32) (seq : W32) (s : State) : Host.Outcome State Fault Refusal :=
  match executing s ch.val seq [3] with
  | some o => if o.blocksPlaced = 0 then .next (settleAll ch.val (placeNext ch.val o s)) else .next s
  | none => .next s

/-- BLOCK_DISPATCH (R134): the next block is placed. -/
def execBlockDispatch (ch : Fin 32) (seq : W32) (s : State) : Host.Outcome State Fault Refusal :=
  match executing s ch.val seq [3] with
  | some o => .next (settleAll ch.val (placeNext ch.val o s))
  | none => .next s

end Sys2Proof.Machine
end

