-- ==== Sys2Proof/Machine/Control.lean ====
section
/-! DEFINITION. Control.lean: branches, calls and register windows (R144 to R148), the end of threads, SLEEP
(R162) and CNTADD (R158). -/
namespace Sys2Proof.Machine
open Sys2Proof

/-! ## Windows (R144 to R148) -/

/-- Base of a thread's spill area in core space (Table MEM-2). -/
def spillBase (g : Group) (i : Nat) : Nat := 0x200000 + i * g.spill

/-- T7 of a thread. -/
def regT7 (t : Thread) : Nat := (Tab.get 0 127 t.regs).toNat

/-- Sets T7. -/
def setT7 (v : Nat) (t : Thread) : Thread := { t with regs := Tab.set 0 127 (lo32 v) t.regs, bad := Tab.set false 127 false t.bad }

/-- The 64 bytes of a window block. -/
def blockBytes (t : Thread) (b : Nat) : Bytes :=
  (List.range 16).flatMap (fun j => natLe 4 (Tab.get 0 (8 + 16 * b + j) t.regs).toNat)

/-- Loads a window block. -/
def putBlock (b : Nat) (bs : Bytes) (t : Thread) : Thread :=
  { t with regs := (List.range 16).foldl (fun r j => Tab.set 0 (8 + 16 * b + j) (lo32 (at_ bs (4 * j) 4)) r) t.regs,
           bad := setRange false false (8 + 16 * b) 16 t.bad }

/-- Offset in the core store of a spill-window address of a group (R169). -/
def spillOffset (g : Group) (a : Nat) : Nat := 0x30000 + g.spillOff + (a - 0x200000)

/-- What a step of the window engines gives: the thread and the state, a group fault, or a parity error. -/
inductive WinRes where
  | ok (t : Thread) (s : State)
  | bad (f : GFault)
  | parity
  deriving DecidableEq, Repr

/-- Whether the parity of T7 or of a block that the spill engine reads fails (R314). -/
def windowBad (t : Thread) (blocks : List Nat) : Bool :=
  Tab.get false 127 t.bad ||
  blocks.any (fun b => (List.range 16).any (fun j => Tab.get false (8 + 16 * b + j) t.bad))

/-- The group fault of a register whose parity fails (R314). -/
def badReg (i : Nat) : GFault := { code := 0xF0B, thread := i, acc := some { code := 0xF0B } }

/-- One step of the spill engine (R148, pseudocode `spill`). -/
def spillStep (x : Iss) (d i : Nat) (t : Thread) (s : State) : WinRes :=
  let a := regT7 t
  if windowBad t [t.oldest] then .bad (badReg i)
  else if a < spillBase x.g i ∨ spillBase x.g i + x.g.spill < a + 64 then .bad { code := 0x801, thread := i, addr := a }
  else .ok { setT7 (a + 64) t with oldest := (t.oldest + 1) % (d + 1), res := t.res - 1 }
    (coreWrite x.loc.core.val (spillOffset x.g a) (blockBytes t t.oldest) s)

/-- One step of the fill engine (R148, pseudocode `fill`). -/
def fillStep (x : Iss) (d i : Nat) (t : Thread) (s : State) : WinRes :=
  let a := regT7 t
  if windowBad t [] then .bad (badReg i)
  else if a < spillBase x.g i + 64 ∨ spillBase x.g i + x.g.spill < a then .bad { code := 0x801, thread := i, addr := a }
  else
    let off := spillOffset x.g (a - 64)
    if coreBadIn x.loc.core.val off 64 s then .parity
    else
      let b := (t.oldest + d) % (d + 1)
      .ok { putBlock b (coreRead x.loc.core.val off 64 s) (setT7 (a - 64) t) with oldest := b, res := t.res + 1 } s

/-- Counts a window trap or a step of the engines (Table THR-9, Table OBS-2). -/
def countWindow (x : Iss) (reg : Nat) (s : State) : State :=
  bump (x.loc.core.val / 16) 12 1 (modCh x.g.ch (caddPair reg 1) s)

/-- Entry of trap context (R145): cause 1 overflow, 2 underflow. -/
def enterTrap (trapAddr cause : Nat) (t : Thread) : Thread :=
  let r := Tab.set 0 122 (lo32 cause) (Tab.set 0 121 (lo32 (t.pc.toNat / 2 ^ 32 % 2 ^ 16))
    (Tab.set 0 120 (lo32 t.pc.toNat) t.regs))
  { t with regs := r, trap := true, pc := BitVec.ofNat 64 trapAddr, bad := setRange false false 120 3 t.bad }

/-- TRAP_ADDR of the group's KERNEL. -/
def trapAddr (x : Iss) (s : State) : Nat := at_ (groupOp s x.g).desc 0x18 8

/-- The move of a CALL to the next window (R144). -/
def moveCall (d target : Nat) (t : Thread) : Thread :=
  let back := t.pc.toNat + 8
  let u := writeCode d 39 (lo32 (back / 2 ^ 32 % 2 ^ 16)) (writeCode d 38 (lo32 back) t)
  { u with win := (t.win + 1) % (d + 1), res := u.res + 1, depth := t.depth + 1, pc := BitVec.ofNat 64 target }

/-- CALL of one thread (R144, R145, R147). -/
def callThread (x : Iss) (target i : Nat) (t : Thread) (s : State) : WinRes :=
  let d := x.depth s
  if t.res = (d : Int) then
    if !t.trap && trapAddr x s != 0 then .ok (enterTrap (trapAddr x s) 1 t) (countWindow x 0x620 s)
    else
      match spillStep x d i t s with
      | .ok u s1 => .ok (moveCall d target u) (countWindow x 0x628 s1)
      | r => r
  else .ok (moveCall d target t) s

/-- The move of a RET to the window before (R144). -/
def moveRet (d : Nat) (t : Thread) : Thread :=
  let lo := (Tab.get 0 (regIdx d t 22) t.regs).toNat
  let hi := (Tab.get 0 (regIdx d t 23) t.regs).toNat
  { t with pc := BitVec.ofNat 64 (lo + hi % 2 ^ 16 * 2 ^ 32), win := (t.win + d) % (d + 1), res := t.res - 1,
           depth := t.depth - 1 }

/-- RET of one thread at call depth 1 or more (R144, R145, R147). -/
def retThread (x : Iss) (i : Nat) (t : Thread) (s : State) : WinRes :=
  let d := x.depth s
  if t.res = 1 then
    if !t.trap && trapAddr x s != 0 then .ok (enterTrap (trapAddr x s) 2 t) (countWindow x 0x620 s)
    else
      match fillStep x d i t s with
      | .ok u s1 => .ok (moveRet d u) (countWindow x 0x628 s1)
      | r => r
  else .ok (moveRet d t) s

/-- Runs a window step for the threads of a path, in order; a fault stops the group, and a parity error
found by the fill engine poisons the KERNEL (R172). -/
def eachWindow (x : Iss) (f : Nat → Thread → State → WinRes) : List Nat → State → State
  | [], s => s
  | i :: l, s =>
    match f i (x.thread i) s with
    | .ok t u => eachWindow x f l (modGroup x.loc (modThread i (fun _ => { t with age := 0 })) u)
    | .bad e => groupFault x.loc x.g e s
    | .parity => accessFault x.g.ch x.g.seq 3 { code := 0x907, addr := regT7 (x.thread i) - 64 } s

/-- The fault of a trap-only instruction outside trap context (R164). -/
def trapOnly (x : Iss) : Option GFault :=
  firstFault x (fun i => if (x.thread i).trap then none else some { code := 0x802, thread := i })

/-- Runs a step that is legal only in trap context. -/
def inTrap (x : Iss) (work : State → State) (s : State) : State :=
  match trapOnly x with
  | some f => groupFault x.loc x.g f s
  | none => work s

/-- SPILLW. -/
def execSpillw (loc : Loc) (s : State) : Host.Outcome State Fault Refusal :=
  .next (issue loc (isOp 0x47) (fun x => inTrap x (fun t => eachWindow x (fun i th u =>
    spillStep x (x.depth t) i { th with pc := th.pc + 8 } u) x.path t)) s)

/-- FILLW. -/
def execFillw (loc : Loc) (s : State) : Host.Outcome State Fault Refusal :=
  .next (issue loc (isOp 0x48) (fun x => inTrap x (fun t => eachWindow x (fun i th u =>
    fillStep x (x.depth t) i { th with pc := th.pc + 8 } u) x.path t)) s)

/-! ## Branches (R162) -/

/-- The address that IMM names: a displacement in instructions from the next one. -/
def branchTo (w : W64) (pc : W64) : W64 := pc + 8 + 8 * (iImm w).signExtend 64

/-- A branch whose condition on A is `taken`. -/
def runBranch (reads : Bool) (taken : W32 → Bool) (x : Iss) (s : State) : State :=
  match codeFault x s (if reads then [iA x.w] else []) [] with
  | some f => groupFault x.loc x.g f s
  | none =>
    let sp := x.special s
    advance x (fun i t =>
      let v := readCode sp i (x.thread i) (iA x.w)
      let u := if reads then latchTime sp (iA x.w) t else t
      if !reads || taken v then { u with pc := branchTo x.w (x.thread i).pc } else u) s

/-- BRA. -/
def execBra (loc : Loc) (s : State) : Host.Outcome State Fault Refusal :=
  .next (issue loc (isOp 0x50) (runBranch false (fun _ => true)) s)
/-- BRZ. -/
def execBrz (loc : Loc) (s : State) : Host.Outcome State Fault Refusal :=
  .next (issue loc (isOp 0x51) (runBranch true (fun a => a == 0)) s)
/-- BRNZ. -/
def execBrnz (loc : Loc) (s : State) : Host.Outcome State Fault Refusal :=
  .next (issue loc (isOp 0x52) (runBranch true (fun a => a != 0)) s)

/-- CALL. -/
def execCall (loc : Loc) (s : State) : Host.Outcome State Fault Refusal :=
  .next (issue loc (isOp 0x53) (fun x t => eachWindow x (fun i th u =>
    callThread x (branchTo x.w th.pc).toNat i th u) x.path t) s)

/-- CALLR: the address in the pair at A. -/
def execCallr (loc : Loc) (s : State) : Host.Outcome State Fault Refusal :=
  .next (issue loc (isOp 0x54) (fun x t =>
    match codeFault x t [iA x.w, nextCode (iA x.w)] [] with
    | some f => groupFault x.loc x.g f t
    | none =>
      let sp := x.special t
      eachWindow x (fun i th u => callThread x (readPair sp i th (iA x.w)) i
        (latchTime sp (nextCode (iA x.w)) (latchTime sp (iA x.w) th)) u) x.path t) s)

/-! ## The end of threads, RET, RESUME, EXIT (R144, R145) -/

/-- RET on a path: at call depth 0 its threads end. -/
def runRet (x : Iss) (s : State) : State :=
  if (x.thread (x.path.headD 0)).depth = 0 then
    settleBlock x.g (x.path.foldl (fun t i => endThread x.loc i t) s)
  else
    match codeFault x s [22, 23] [] with
    | some f => groupFault x.loc x.g f s
    | none => eachWindow x (fun i th u => retThread x i th u) x.path s

/-- RET. -/
def execRet (loc : Loc) (s : State) : Host.Outcome State Fault Refusal := .next (issue loc (isOp 0x55) runRet s)

/-- The work of RESUME: trap context ends at the address in T1:T0. -/
def runResume (x : Iss) (s : State) : State :=
  match codeFault x s [40, 41] [] with
  | some f => groupFault x.loc x.g f s
  | none => advance x (fun _ t =>
    { t with trap := false,
             pc := BitVec.ofNat 64 ((Tab.get 0 120 t.regs).toNat + (Tab.get 0 121 t.regs).toNat % 2 ^ 16 * 2 ^ 32) }) s

/-- RESUME. -/
def execResume (loc : Loc) (s : State) : Host.Outcome State Fault Refusal :=
  .next (issue loc (isOp 0x56) (fun x => inTrap x (runResume x)) s)

/-- EXIT. -/
def execExitT (loc : Loc) (s : State) : Host.Outcome State Fault Refusal :=
  .next (issue loc (isOp 0x57) (fun x t => settleBlock x.g (x.path.foldl (fun u i => endThread x.loc i u) t)) s)

/-- SLEEP: IMM ns, at most 1,000,000 (R162). -/
def runSleep (x : Iss) (s : State) : State :=
  if 1000000 < (iImm x.w).toNat then illegal x s
  else advance x (fun _ t => { t with wait := .sleep (BitVec.ofNat 64 (now s + (iImm x.w).toNat)) }) s

/-- SLEEP. -/
def execSleep (loc : Loc) (s : State) : Host.Outcome State Fault Refusal := .next (issue loc (isOp 0x58) runSleep s)

/-- CNTADD (R158): the threads of the path add in order. IMM[15:0] names the counter; the manual says nothing of
IMM[31:16], which CNTADD ignores (log entry 95). -/
def runCntadd (x : Iss) (s : State) : State :=
  let k := (iImm x.w).toNat % 65536
  if 4095 < k then illegal x s
  else
    match codeFault x s [iA x.w] [] with
    | some f => groupFault x.loc x.g f s
    | none =>
      let sp := x.special s
      let n := x.g.ch
      noteWaits n (x.path.foldl (fun t i =>
        changeCounter n k (counterOf (chOf t n) k + readCode sp i (x.thread i) (iA x.w)) t)
        (advance x (fun _ t => latchTime sp (iA x.w) t) s))

/-- CNTADD. -/
def execCntadd (loc : Loc) (s : State) : Host.Outcome State Fault Refusal := .next (issue loc (isOp 0x60) runCntadd s)

end Sys2Proof.Machine
end

