-- ==== Sys2Proof/Machine/Manage.lean ====
section
/-! DEFINITION. Manage.lean: the mailbox (R381), the measurement blocks (R64), SPDM (R63), the vendor commands (R383),
firmware update (R385) and the test access port (R384). -/
namespace Sys2Proof.Machine
open Sys2Proof

/-! ## Measurements (Table STR-16) -/

/-- The bytes that measurement 6 covers: STR_DEBUG and CHM_PROT of the 32 chambers. -/
def protBytes (s : State) : Bytes :=
  natLe 4 (gget 0x218 s).toNat ++ allCh.flatMap (fun n => natLe 4 (chmLive s n 0x14).toNat)

/-- The bytes that measurement 7 covers: CHM_OKEY of each defined chamber, 0 without an owner credential. -/
def ownerBytes (s : State) : Bytes :=
  (allCh.filter (defined s)).flatMap (fun n =>
    if (chOf s n).ownerSet then okeyBytes (chOf s n) else List.replicate 96 0)

/-- Measurement block `i`, 1 to 7. Before the first load of an image, block 4 is free. -/
def measurement (s : State) (i : Nat) : Bytes :=
  match i with
  | 1 => Config.codeDigest 1 0
  | 2 => Config.codeDigest 2 (copyVersion s.firmware s.firmware.booted).toNat
  | 3 => Config.codeDigest 3 s.firmware.ucode.toNat
  | 4 => if bit (gget 0x200 s) 0 then s.imgDigest else Config.codeDigest 4 0
  | 5 => sha384 (natLe 4 (flowAt s 1).toNat ++ pkeyBytes s)
  | 6 => sha384 (protBytes s)
  | 7 => sha384 (ownerBytes s)
  | _ => []

/-- The seven blocks, 48 B each, in index order. -/
def allMeasurements (s : State) : Bytes :=
  ([1, 2, 3, 4, 5, 6, 7].map (fun i => slice (measurement s i) 0 48)).flatten

/-! ## Mailbox (R381) -/

/-- The response of GET_INFO (Table MOD-6). -/
def infoBytes (s : State) : Bytes :=
  [0x4000, 0x4004, 0x4008, 0x400C, 0x1008, 0x210].flatMap (fun o => natLe 4 (globalLive s o).toNat)

/-- RESULT and response of a mailbox command: none of them takes a request. -/
def mailboxAnswer (s : State) (op len : Nat) : Nat × Bytes :=
  if op = 0 ∨ 3 < op then (1, [])
  else if len ≠ 0 then (2, [])
  else if op = 1 then (0, infoBytes s)
  else if op = 2 then (0, Config.fruTable.take 4096)
  else (0, allMeasurements s)

/-- MAILBOX_COMPLETE (R381). -/
def execMailboxComplete (s : State) : Host.Outcome State Fault Refusal :=
  match s.mbxCmd with
  | none => .next s
  | some v =>
    let a := mailboxAnswer s (fld v 7 0) (fld v 31 16)
    let s1 := { s with mbxCmd := none, mbxResp := memWrite s.mbxResp 0 a.2 }
    .next (sendVec 0 1 (gset 0x2000004 (word (2 + 256 * a.1 + 65536 * a.2.length)) s1))

/-! ## SPDM (R63, R64) -/

/-- Whether the management interface answers (R382): in Standby, Ready and Active, and in every sequence. -/
def answers (s : State) : Bool := managerUp s || s.power.phase == .startUp

/-- Whether it answers with more than the recovery responder's services (R385): firmware runs, from the end of start-up
step 2 on. -/
def answersAll (s : State) : Bool := answers s && decide (s.firmware.booted ≠ 0)

/-- Changes the responder. -/
def modSpdm (f : Spdm → Spdm) (s : State) : State := { s with spdm := f s.spdm }

/-- An SPDM response: what the manual gives of its content, then what SPDM, certificates and keys fix. -/
def spdmSay (code : Nat) (body : Bytes) (s : State) : State :=
  emit (.spdm code (body ++ Config.spdmBody code s.spdm.count)) (modSpdm (fun q => { q with count := q.count + 1 }) s)

/-- An ERROR response. -/
def spdmError (s : State) : State := spdmSay 0x7F [] s

/-- Whether a message came outside every session, or in an established one. -/
def sessionOk (s : State) (sess : Sess) : Bool :=
  match sess with
  | none => true
  | some id => s.spdm.sessions.contains id

/-- Whether a request that needs a completed negotiation is in order. -/
def negotiated (s : State) (sess : Sess) : Bool := s.spdm.algs && sessionOk s sess

/-- GET_VERSION (R63): a new negotiation begins, and sessions end. -/
def execGetVersion (s : State) : Host.Outcome State Fault Refusal :=
  if answers s then .next (spdmSay 0x04 [] (modSpdm (fun q => { version := true, count := q.count }) s)) else .next s

/-- GET_CAPABILITIES (R63). -/
def execGetCapabilities (s : State) : Host.Outcome State Fault Refusal :=
  if !answers s then .next s
  else if s.spdm.version then .next (spdmSay 0x61 [] (modSpdm (fun q => { q with caps := true }) s))
  else .next (spdmError s)

/-- The offered algorithms of R63 that a request names: P-384 signatures, SHA-384, secp384r1, AES-256-GCM. -/
def selected (asym hash dhe aead : W32) : List W32 := [asym &&& 0x80#32, hash &&& 2#32, dhe &&& 0x10#32, aead &&& 2#32]

/-- NEGOTIATE_ALGORITHMS (R63). -/
def execNegotiateAlgorithms (asym hash dhe aead : W32) (s : State) : Host.Outcome State Fault Refusal :=
  if !answers s then .next s
  else if s.spdm.caps then
    let l := selected asym hash dhe aead
    .next (spdmSay 0x63 (l.flatMap (fun w => natLe 4 w.toNat))
      (modSpdm (fun q => { q with algs := l.all (· != 0) }) s))
  else .next (spdmError s)

/-- GET_DIGESTS (R63). -/
def execGetDigests (sess : Sess) (s : State) : Host.Outcome State Fault Refusal :=
  if !answers s then .next s
  else if negotiated s sess then .next (spdmSay 0x01 [] s)
  else .next (spdmError s)

/-- GET_CERTIFICATE (R63): slot 0 alone holds a chain. -/
def execGetCertificate (sess : Sess) (slot : W8) (_off _len : W16) (s : State) : Host.Outcome State Fault Refusal :=
  if !answers s then .next s
  else if negotiated s sess && slot == 0 then .next (spdmSay 0x02 [] s)
  else .next (spdmError s)

/-- CHALLENGE (R63). -/
def execChallenge (sess : Sess) (slot : W8) (s : State) : Host.Outcome State Fault Refusal :=
  if !answers s then .next s
  else if negotiated s sess && slot == 0 then .next (spdmSay 0x03 [] s)
  else .next (spdmError s)

/-- The measurement content of a response: the number of blocks for index 0, all blocks for 0xFF, else one. -/
def measuredBytes (s : State) (index : W8) : Bytes :=
  if index = 0 then [7]
  else if index = 0xFF then allMeasurements s
  else slice (measurement s index.toNat) 0 48

/-- GET_MEASUREMENTS (R64). -/
def execGetMeasurements (sess : Sess) (index : W8) (s : State) : Host.Outcome State Fault Refusal :=
  if !answers s then .next s
  else if answersAll s && negotiated s sess && (decide (index.toNat ≤ 7) || index == 0xFF) then
    .next (spdmSay 0x60 (measuredBytes s index) s)
  else .next (spdmError s)

/-- KEY_EXCHANGE (R63): slot 0; the responder's half of the session id is its own choice. -/
def execKeyExchange (slot : W8) (reqId : W16) (s : State) : Host.Outcome State Fault Refusal :=
  if !answers s then .next s
  else if answersAll s && s.spdm.algs && slot == 0 then
    let d := draw s
    let id : W32 := BitVec.ofNat 32 (reqId.toNat + d.1.toNat % 65536 * 65536)
    .next (spdmSay 0x64 (natLe 4 id.toNat) (modSpdm (fun q => { q with opening := id :: q.opening }) d.2))
  else .next (spdmError s)

/-- Two session ids name the same session to the requester: its own half (log entry 61). -/
def sameHalf (a b : W32) : Bool := a.truncate 16 == (b.truncate 16 : W16)

/-- FINISH (R63): the session becomes the operator party of R50. -/
def execFinish (id : W32) (s : State) : Host.Outcome State Fault Refusal :=
  if !answers s then .next s
  else if s.spdm.opening.any (sameHalf id) then
    .next (spdmSay 0x65 [] (modSpdm (fun q => { q with
      opening := q.opening.filter (fun i => !sameHalf id i), sessions := id :: q.sessions }) s))
  else .next (spdmError s)

/-- END_SESSION (R63). -/
def execEndSession (id : W32) (s : State) : Host.Outcome State Fault Refusal :=
  if !answers s then .next s
  else if s.spdm.sessions.contains id then
    .next (spdmSay 0x6C [] (modSpdm (fun q => { q with sessions := q.sessions.filter (· != id) }) s))
  else .next (spdmError s)

/-- HEARTBEAT (R63). -/
def execHeartbeat (id : W32) (s : State) : Host.Outcome State Fault Refusal :=
  if !answers s then .next s
  else if s.spdm.sessions.contains id then .next (spdmSay 0x68 [] s)
  else .next (spdmError s)

/-- KEY_UPDATE (R63), with the operations UpdateKey, UpdateAllKeys and VerifyNewKey. -/
def execKeyUpdate (id : W32) (op : W8) (s : State) : Host.Outcome State Fault Refusal :=
  if !answers s then .next s
  else if s.spdm.sessions.contains id && decide (1 ≤ op.toNat ∧ op.toNat ≤ 3) then .next (spdmSay 0x69 [] s)
  else .next (spdmError s)

/-! ## What PLDM and the bus show (R382) -/

/-- The SMBus address: 0x60 + ADDR[1:0], the pins of Table MOD-9. -/
def smbusAddress (s : State) : Nat := 0x60 + fld (globalLive s 0x4010) 6 5

/-- PLDM numeric sensor `k`, 1 to 224: housekeeping channel k − 1, where its reading is valid. -/
def numericSensor (s : State) (k : Nat) : Option W16 :=
  let w := hkLive s (k - 1)
  if 1 ≤ k ∧ k ≤ 224 ∧ bit w 16 then some (w.truncate 16) else none

/-- What a PLDM state sensor stands for: the power state, a chamber's state, a port's state. -/
inductive StateSensor where
  | power
  | chamber (n : Fin 32)
  | port (p : Fin 24)
  deriving DecidableEq, Repr

/-- The present state of a PLDM state sensor: the code of Table PWR-1, of CHM_STAT.STATE or of LNK_PSTAT.STATE. -/
def stateSensor (s : State) (x : StateSensor) : Nat :=
  match x with
  | .power => stateCode s
  | .chamber n => fld (chmLive s n.val 0x4) 3 0
  | .port p => fld (globalLive s (0x1104 + 0x40 * p.val)) 2 0

/-- The FRU record table, as PLDM FRU and GET_FRU give it. -/
def fruRecord : Bytes := Config.fruTable.take 4096

/-! ## Vendor commands (R383) -/

/-- Answers a vendor command. -/
def vendorSay (command code : Nat) (data : Bytes) (s : State) : State := emit (.mctp command code data) s

/-- Whether a secured command came in an established session. -/
def secured (s : State) (sess : Sess) : Bool :=
  match sess with
  | none => false
  | some id => s.spdm.sessions.contains id

/-- The scope that a scope byte names: the module, or a defined chamber. -/
def scopeOf (s : State) (b : W8) : Option Scope :=
  if b = 0xFF then some .module
  else if h : b.toNat < 32 then (if defined s b.toNat then some (.chamber ⟨b.toNat, h⟩) else none)
  else none

/-- The answer of a command on a scope: code, and RESULT with code 4. -/
def apvSay (command : Nat) (r : ApvAnswer × State) : State :=
  vendorSay command r.1.1 (if r.1.1 = 4 then natLe 1 r.1.2 else []) r.2

/-- A secured command on a scope: code 1 outside a session, code 2 for no scope. -/
def scopeCommand (command : Nat) (sess : Sess) (b : W8) (run : Scope → State → ApvAnswer × State) (s : State) : State :=
  if !answersAll s then s
  else if !secured s sess then vendorSay command 1 [] s
  else
    match scopeOf s b with
    | none => vendorSay command 2 [] s
    | some sc => apvSay command (run sc s)

/-- APV_WRITE on a scope (R51). -/
def apvWriteOp (off v : W32) (sc : Scope) (s : State) : ApvAnswer × State :=
  if (bufMask s sc off.toNat).isNone then ((2, 0), s)
  else if apvClosed (apvOf s sc) then ((3, 0), s)
  else if apvFull (apvOf s sc) off then ((4, 0), rwaWrite sc off v s)
  else ((0, 0), rwaWrite sc off v s)

/-- APV_WRITE (R51, R383). -/
def execApvWrite (sess : Sess) (scope : W8) (off v : W32) (s : State) : Host.Outcome State Fault Refusal :=
  .next (scopeCommand 0x10 sess scope (apvWriteOp off v) s)

/-- APV_PROPOSE (R383). -/
def execApvPropose (sess : Sess) (scope : W8) (s : State) : Host.Outcome State Fault Refusal :=
  .next (scopeCommand 0x11 sess scope apvProposeOp s)

/-- A record that is not 192 B long fails the form check. -/
def apvSubmitAny (rec : Bytes) (sc : Scope) (s : State) : ApvAnswer × State :=
  if rec.length = 192 then apvSubmitOp sc 2 rec s else ((2, 0), s)

/-- APV_SUBMIT (R52, R383): the operator record. -/
def execApvSubmit (sess : Sess) (scope : W8) (rec : Bytes) (s : State) : Host.Outcome State Fault Refusal :=
  .next (scopeCommand 0x12 sess scope (apvSubmitAny rec) s)

/-- APV_CANCEL (R383). -/
def execApvCancel (sess : Sess) (scope : W8) (s : State) : Host.Outcome State Fault Refusal :=
  .next (scopeCommand 0x13 sess scope apvCancelOp s)

/-- The APV block of a scope, 0x300 B. -/
def apvBytes (s : State) (sc : Scope) : Bytes :=
  (List.range 192).flatMap (fun i => natLe 4 (apvLive (apvOf s sc) (4 * i)).toNat)

/-- APV_READ (R383). -/
def execApvRead (_sess : Sess) (scope : W8) (s : State) : Host.Outcome State Fault Refusal :=
  if !answersAll s then .next s
  else
    match scopeOf s scope with
    | none => .next (vendorSay 0x14 2 [] s)
    | some sc => .next (vendorSay 0x14 0 (apvBytes s sc) s)

/-- READ_REG (R383): one register of the global block. -/
def execReadReg (off : W32) (s : State) : Host.Outcome State Fault Refusal :=
  if !answersAll s then .next s
  else if off.toNat % 4 ≠ 0 ∨ 0x400000 ≤ off.toNat then .next (vendorSay 0x01 2 [] s)
  else .next (vendorSay 0x01 0 (natLe 4 (globalLive s off.toNat).toNat) s)

/-- SET_TLIM (R367, R383): flowstone word 384; busy answers 3, a worn word 4 (R57). -/
def execSetTlim (sess : Sess) (v : W32) (s : State) : Host.Outcome State Fault Refusal :=
  if !answersAll s then .next s
  else if !secured s sess then .next (vendorSay 0x20 1 [] s)
  else
    .next (vendorSay 0x20 (if s.flowBusy then 3 else if worn s 384 then 4 else 0) [] (flowWrite 384 v s))

/-- CLEAR_TRIP (R383): TRIP and LAST_TRIP clear. -/
def execClearTrip (sess : Sess) (s : State) : Host.Outcome State Fault Refusal :=
  if !answersAll s then .next s
  else if !secured s sess then .next (vendorSay 0x21 1 [] s)
  else .next (vendorSay 0x21 0 [] (modPower (fun q => { q with trip := false, lastTrip := 0 }) s))

/-- WARM_RESET (R383, R389): code 4 outside Ready and Active. -/
def execWarmReset (sess : Sess) (s : State) : Host.Outcome State Fault Refusal :=
  if !answersAll s then .next s
  else if !secured s sess then .next (vendorSay 0x22 1 [] s)
  else if !isReady s then .next (vendorSay 0x22 4 [] s)
  else .next (startWarm 5 (vendorSay 0x22 0 [] s))

/-! ## Firmware (R385) -/

/-- The copy that an update writes: the one not in use. -/
def spareCopy (f : Firmware) : Nat := if f.booted = 0 then 3 - f.newest else 3 - f.booted

/-- A new management firmware in a copy; it boots at the next passage through Off. -/
def putCopy (k : Nat) (version : W16) (security : W8) (ok : Bool) (f : Firmware) : Firmware :=
  if k = 1 then { f with verA := version, secA := security.toNat, okA := ok, newest := 1 }
  else { f with verB := version, secB := security.toNat, okB := ok, newest := 2 }

/-- FIRMWARE_UPDATE (R385): new microcode takes effect at the next cold start. -/
def execFirmwareUpdate (microcode : Bool) (version : W16) (security : W8) (verifies : Bool) (s : State) :
    Host.Outcome State Fault Refusal :=
  if !answers s then .next s
  else if microcode then
    .next (if verifies then { s with firmware := { s.firmware with ucodeNext := version } } else s)
  else .next { s with firmware := putCopy (spareCopy s.firmware) version security verifies s.firmware }

/-! ## Test access port (R384) -/

/-- Loads an instruction into a die's instruction register, which holds IDCODE (1) until then. -/
def loadIr (die : Fin 2) (code : W8) (s : State) : State := { s with jtag := Tab.set 1 die.val code s.jtag }

/-- BYPASS (R384), and every code of no other instruction, which acts as BYPASS unless STR_DEBUG.JTAG_UNLOCK = 1. What
such an instruction does beyond standing in its register is not stated (log entry 107). -/
def execBypass (die : Fin 2) (code : W8) (s : State) : Host.Outcome State Fault Refusal :=
  .next (loadIr die (if bit (gget 0x218 s) 0 then code else 0xFF) s)

/-- IDCODE (R384). -/
def execIdcode (die : Fin 2) (s : State) : Host.Outcome State Fault Refusal :=
  .next (emit (.tap die.val (word (0x00901C2B + 2 ^ 28 * fld (gget 0x4000 s) 19 16))) (loadIr die 1 s))

/-- SAMPLE/PRELOAD (R384): the pins' levels are outside the model, and the sample is free. -/
def execSamplePreload (die : Fin 2) (s : State) : Host.Outcome State Fault Refusal :=
  let f := fresh s
  .next (emit (.tap die.val (f.1.truncate 32)) (loadIr die 2 f.2))

/-- EXTEST (R384): BYPASS in Ready and Active. -/
def execExtest (die : Fin 2) (s : State) : Host.Outcome State Fault Refusal :=
  .next (loadIr die (if isReady s then 0xFF else 0) s)

end Sys2Proof.Machine
end

