-- ==== Sys2Proof/Machine/Mismatch.lean ====
section
/-! DEFINITION. Mismatch.lean: what a failing run-time check does (R103, R127 to R130). -/
namespace Sys2Proof.Machine
open Sys2Proof

/-- Whether a core's compares failed. -/
def failed (f : CoreFail) : Bool := f.lane || f.cols != []

/-- Module-time order of failures, ties going to the lower core (R129). -/
def failBefore (a b : CoreFail) : Bool :=
  decide (a.time.toNat < b.time.toNat ∨ (a.time = b.time ∧ a.core ≤ b.core))

/-- Puts a failure in its place; a core counts once for one operation (R129). -/
def insertFail (f : CoreFail) : List CoreFail → List CoreFail
  | [] => [f]
  | g :: l => if failBefore f g then f :: g :: l else g :: insertFail f l

/-- The failures among verdicts, one a core, in order. -/
def sortFails (fs : List CoreFail) : List CoreFail :=
  fs.foldl (fun acc f =>
    if failed f && !acc.any (fun g => g.core == f.core) then insertFail f acc else acc) []

/-- LANE of an event and of CHK_LAST_LOC (R128). -/
def laneField (f : CoreFail) : Nat :=
  if !f.colOn then 0xFF
  else
    match f.cols with
    | [] => 128
    | [l] => l
    | _ => 0xFF

/-- The layout of CHK_LAST_LOC (Table CHK-3). -/
def failLoc (f : CoreFail) : Nat :=
  let core := f.core
  core + core / 16 * 2 ^ 10 + laneField f * 2 ^ 16 + (if f.lane then 2 ^ 24 else 0) +
  (if f.cols != [] then 2 ^ 25 else 0) + dieOfCore core * 2 ^ 26

/-- The event code of a core's failure (R128). -/
def failCode (f : CoreFail) : Nat := if f.lane then 0x701 else 0x702

/-- Suspect count of a core (Table CHK-4). -/
def suspect (s : State) (core : Nat) : Nat :=
  let i := core % 4
  fld (gget (0x800 + 4 * (core / 4)) s) (8 * i + 7) (8 * i)

/-- Adds 1 to a core's suspect count, up to 255. -/
def addSuspect (core : Nat) (s : State) : State :=
  let i := core % 4
  gmod (0x800 + 4 * (core / 4)) (fun w => setFld w (8 * i + 7) (8 * i) (min 255 (suspect s core + 1))) s

/-- One core's own event, count and suspect counter (R129). -/
def raiseFail (n : Nat) (seq : W32) (f : CoreFail) (s : State) : State :=
  let core := f.core
  let old := suspect s core
  let s1 := addSuspect core s
  let new := suspect s1 core
  let thr := fld (gget 0xC00 s) 7 0
  let s2 := event n (failCode f) seq.toNat [failLoc f, f.time.toNat, new]
    (modCh n (fun c => ccount 0x514 1 (cmod 0x500 (fun w => setBit w 0 true) c)) s1)
  ifdo (thr != 0 && new == thr && old != new) (event n 0x703 0 [core, new]) s2

/-- CHK_STAT.LAST_CODE and the CHK_LAST registers take the first failure (R129). -/
def lastFail (seq : W32) (f : CoreFail) (c : Chamber) : Chamber :=
  csetPair 0x50C f.time.toNat (cset 0x508 (BitVec.ofNat 32 (failLoc f)) (cset 0x504 seq
    (cmod 0x500 (fun w => setFld w 31 16 (failCode f)) c)))

/-- What a mismatch raises and records, in either case of R130. -/
def recordFails (n : Nat) (seq : W32) (fs : List CoreFail) (s : State) : State :=
  match fs with
  | [] => s
  | f :: _ => modCh n (lastFail seq f) (forAll fs (raiseFail n seq) s)

/-- Whether a check switch or MODE leaves an operation without compares (R117, R126). -/
def compared (o : Op) : Bool := !unchecked o

/-- What the compares deliver for the faults of cores that run the operation: each fault lies in a work unit of its
core (R92). -/
def verdicts (o : Op) (ts : List TileRes) (faults : List CoreFault) : List CoreFail :=
  let units := ts.flatMap (·.units)
  faults.filterMap (fun f =>
    match units.find? (fun u => u.1 == f.unit && u.2.1 == f.core.val) with
    | some u => if compared o then some (runVerdict (!o.laneOff) (!o.colOff) u.2.2 f) else none
    | none => none)

/-- Whether compares of an operation can still deliver (R103, R125): its steps run, or it has finished them and
neither combined, written nor sent anything, which waits for every compare: it keeps its tiles, unpartitioned and
without an adapter pass. -/
def openCompares (c : Chamber) (o : Op) : Bool :=
  !o.begun || ((accOut o == 1 || o.state == .held) && opP c o == 1 && !bit (control o) 25)

/-- Whether a tile may have been finished before the failing cores stopped (R103, R127 steps 1 and 2): none of its
units runs on a failing core at or after that core's failing unit. -/
def mayFinish (faults : List CoreFault) (fs : List CoreFail) (r : TileRes) : Bool :=
  r.units.all (fun u => !faults.any (fun f =>
    fs.any (fun g => g.core == f.core.val) && u.2.1 == f.core.val && decide (f.unit ≤ u.1)))

/-- A free choice among tiles: those whose output had been written when their cores stopped (R127 step 5, log entry
100). -/
def pickTiles : List TileRes → State → List TileRes × State
  | [], s => ([], s)
  | r :: l, s =>
    let f := fresh s
    let p := pickTiles l f.2
    (if f.1.getLsbD 0 then r :: p.1 else p.1, p.2)

/-- The output of an operation that a mismatch stops: some finished tiles are written, and the accumulators of every
core that runs it hold what the stop left there, which is free. -/
def stopMatrix (n : Nat) (o : Op) (faults : List CoreFault) (fs : List CoreFail) (ts : List TileRes) (s : State) : State :=
  let w := pickTiles (ts.filter (mayFinish faults fs)) s
  let parts := if accOut o = 1 then [] else outParts o w.1
  let s1 := (outputParts n o parts (matCounts n o w.1 parts w.2)).2
  forAll ts (fun r t => forAll r.units (fun u v => spoilTile r.tl u.2.1 v) t) s1

/-- The end of the poisoned operation X (R127 steps 3 and 4): its accumulate-state lines, its contributions that wait
for a way and its packets that wait unsent are discarded, its held tile set is left undefined, the chamber halts, the
failing cores raise their events, and X retires POISON. -/
def poison (n : Nat) (o : Op) (f : CoreFail) (l : List CoreFail) (s : State) : State :=
  let d := discardSince o.start (chOf s n)
  let c := { caddPair 0x838 d.1 d.2 with
    held := Tab.set none o.list none d.2.held
    waitAlloc := d.2.waitAlloc.filter (fun k => k.seq != o.seq)
    reqs := d.2.reqs.filter (fun r => r.sent || r.seq != o.seq) }
  let s1 := recordFails n o.seq (f :: l) (haltFor n o.seq (failCode f) (setCh n c s))
  retireOp n { o with ended := s.time } .poison (event n 0x704 o.seq.toNat [d.1] s1)

/-- A mismatch found while or after operation `o` runs (R127, R130). -/
def mismatch (n : Nat) (o : Op) (faults : List CoreFault) (s : State) : State :=
  match matCompute n o (linkedTo (chOf s n) o) s with
  | (.ok (.ok ts), t) =>
    match sortFails (verdicts o ts faults) with
    | [] => s
    | f :: l =>
      let u := if o.begun then s else stopMatrix n o faults (f :: l) ts t
      poison n ((opOf (chOf u n) o.seq).getD o) f l u
  | _ => s

/-- A mismatch of an operation that a halt or a RESET is stopping or has just stopped: it is raised and counted, once,
and the state stays (R129, R130). -/
def lateMismatch (n : Nat) (o : Op) (faults : List CoreFault) (s : State) : State :=
  match (matCompute n o false s).1 with
  | .ok (.ok ts) =>
    let u := recordFails n o.seq (sortFails (verdicts o ts faults)) s
    modCh n (fun c => { c with stopped := c.stopped.filter (fun q => q.seq != o.seq) }) u
  | _ => s

/-- CHECK_MISMATCH (R127 to R130). -/
def execCheckMismatch (ch : Fin 32) (seq : W32) (faults : List CoreFault) (s : State) :
    Host.Outcome State Fault Refusal :=
  let n := ch.val
  match opOf (chOf s n) seq with
  | some o =>
    if (opType o == 1 || opType o == 2) && entered o && openCompares (chOf s n) o then
      .next (settleAll n (mismatch n o faults s))
    else .next s
  | none =>
    match stoppedOp s n seq with
    | some o => if (opType o == 1 || opType o == 2) && !o.begun then .next (lateMismatch n o faults s) else .next s
    | none => .next s

end Sys2Proof.Machine
end

