-- ==== Sys2Proof/Machine/Atomic.lean ====
section
/-! DEFINITION. Atomic.lean: the atomic functions (Table THR-5) and their performance at the memory side
(R155, R176), for the threads of a chamber and for the owner of a remote access. -/
namespace Sys2Proof.Machine
open Sys2Proof

/-- Width in bytes of an atomic function's location: 8 for CAS64, 2 for HADD, otherwise 4. -/
def atomWidth (func : Nat) : Nat := if func = 5 then 8 else if func = 6 then 2 else 4

/-- The value that an atomic function writes; `none` where a compare fails (Table THR-5, R155). -/
def atomNew (func old operand cmp : Nat) : Option Nat :=
  match func with
  | 0 => some ((old + operand) % 2 ^ 32)
  | 1 => some (if (lo32' old).toInt < (lo32' operand).toInt then operand % 2 ^ 32 else old)
  | 2 => some (max old (operand % 2 ^ 32))
  | 3 => some (addF (lo32' old) (lo32' operand)).toNat
  | 4 => if old = cmp % 2 ^ 32 then some (operand % 2 ^ 32) else none
  | 5 => if old = cmp then some operand else none
  | _ => some ((rb (addX (xb (BitVec.ofNat 16 old)) (xb (BitVec.ofNat 16 operand)))).toNat)
where
  /-- The low 32 bits. -/
  lo32' (n : Nat) : W32 := BitVec.ofNat 32 n

/-- One atomic step on a location of a chamber's gallery window (thread SPACE 1) or bulk (2): the old value. The
whole word is written back, also where a compare fails (R176). -/
def atomAt (n : Nat) (a : Agent) (space addr func operand cmp : Nat) (s : State) : Res Nat :=
  let w := atomWidth func
  let f := fun (old : Bytes) => natLe w ((atomNew func (leNat old) operand cmp).getD (leNat old))
  andThen (if space = 1 then galChange n a addr w f s else bulkChange n a addr w f s)
    (fun old t => (.ok (leNat old), t))

end Sys2Proof.Machine
end

