-- ==== Sys2Proof/Machine/ThreadMem.lean ====
section
/-! DEFINITION. ThreadMem.lean: the memory instructions of threads: LD, ST, CPY, ATOM, RED, FENCE and BAR
(R149 to R156, R168 to R172, R192 to R200). -/
namespace Sys2Proof.Machine
open Sys2Proof

/-! ## Addresses and checks -/

/-- The registers that an address takes: A, or its pair, whose code must be even (R149). -/
def addrCodes (w : W64) : List Nat := if iSpace w = 0 then [iA w] else [iA w, nextCode (iA w)]

/-- Whether A is a legal address operand. -/
def addrOk (w : W64) : Bool := iSpace w == 0 || iA w % 2 == 0

/-- The alignment fault of a thread's access: 0x0805, in remote space 0x0A01 (R149, R193). -/
def alignFault (x : Iss) (s : State) (len : Nat) (wr : Bool) (i : Nat) : Option GFault :=
  let a := memAddr x s i
  if a % len = 0 then none
  else if iSpace x.w = 3 then
    some { code := 0xA01, thread := i, addr := a, acc := some { code := 0xA01, addr := a, space := 3, write := wr } }
  else some { code := 0x805, thread := i, addr := a }

/-- The fault of a core-space access: 0x0901 outside its regions or of a size that a tile window does not
take (R168, R170). -/
def coreFault (x : Iss) (s : State) (a len : Nat) (wr : Bool) (i : Nat) : Option GFault :=
  let bad : Option GFault :=
    some { code := 0x901, thread := i, addr := a, acc := some { code := 0x901, addr := a, write := wr } }
  match corePlace s x.loc x.g a len with
  | none => bad
  | some p => if p.tile && !(len == 4 || len == 8) then bad else none

/-- Parity fault of a core-space read (R172); `wr` for the read of an atomic or RED (Table MEM-7). -/
def parityFault (x : Iss) (s : State) (a len : Nat) (wr : Bool) (i : Nat) : Option GFault :=
  match corePlace s x.loc x.g a len with
  | some p =>
    if coreBadIn p.core p.off len s then
      some { code := 0x907, thread := i, addr := a, acc := some { code := 0x907, addr := a, write := wr } }
    else none
  | none => none

/-- The fault of a remote access to no peer (R193). -/
def remoteFault (x : Iss) (s : State) (wr : Bool) (i : Nat) : Option GFault :=
  let a := memAddr x s i
  if badRemote (chOf s x.g.ch) a then
    some { code := 0xA01, thread := i, addr := a, acc := some { code := 0xA01, addr := a, space := 3, write := wr } }
  else none

/-- What is checked of thread `i` before an access is performed. -/
def accessCheck (x : Iss) (s : State) (len : Nat) (rd wr : Bool) (i : Nat) : Option GFault :=
  match alignFault x s len wr i with
  | some f => some f
  | none =>
    match iSpace x.w with
    | 0 =>
      match coreFault x s (memAddr x s i) len wr i with
      | some f => some f
      | none => if rd then parityFault x s (memAddr x s i) len wr i else none
    | 3 => remoteFault x s wr i
    | _ => none

/-- An access of thread `i` faults: a group fault, but a word that the page walker finds uncorrectable poisons the
KERNEL (Table ECC-1). -/
def threadFault (x : Iss) (i a : Nat) (wr : Bool) (e : MErr) (s : State) : State :=
  if e.walker then accessFault x.g.ch x.g.seq 0 { e with space := iSpace x.w, write := wr } s
  else
    groupFault x.loc x.g { code := e.code, thread := i, addr := a, acc := some { e with space := iSpace x.w, write := wr } } s

/-- Runs an access for the threads of a path in order; the first that faults stops the group. -/
def eachThread (x : Iss) (addr : Nat → Nat) (wr : Bool) (f : Nat → State → Res Unit) : List Nat → State → State
  | [], s => s
  | i :: l, s =>
    match f i s with
    | (.ok (), t) => eachThread x addr wr f l t
    | (.error e, t) => threadFault x i (addr i) wr e t

/-- Where an access reads TIME_LO, the threads of the path latch TIME_HI (Table THR-2). -/
def latchPath (x : Iss) (codes : List Nat) (s : State) : State :=
  let sp := x.special s
  if codes.contains 57 then
    modGroup x.loc (fun g => x.path.foldl (fun h i => modThread i (latchTime sp 57) h) g) s
  else s

/-- An access that issues: checks, then the work. -/
def access (x : Iss) (len : Nat) (rd wr : Bool) (srcs dsts : List Nat) (work : State → State) (s : State) : State :=
  if !addrOk x.w then illegal x s
  else
    match codeFault x s (addrCodes x.w ++ srcs) dsts with
    | some f => groupFault x.loc x.g f s
    | none =>
      match firstFault x (accessCheck x s len rd wr) with
      | some f => groupFault x.loc x.g f s
      | none => work (latchPath x (addrCodes x.w ++ srcs) s)

/-! ## LD (R149, R150, R196) -/

/-- Bytes of an LD or ST. -/
def sizeOf_ (w : W64) : Nat := 2 ^ iTy w

/-- The thread waits for a result at D; `v` where it is there already. -/
def await (x : Iss) (i : Nat) (pair : Bool) (v : Option W64) (s : State) : State :=
  modGroup x.loc (modThread i (fun t => { t with pc := t.pc + 8, wait := .mem (iD x.w) pair v })) s

/-- A result of `len` bytes for a thread. -/
def awaitBytes (x : Iss) (i len : Nat) (bs : Bytes) (s : State) : State :=
  let f := fresh s
  await x i (len == 8) (some (loadValue len bs f.1)) f.2

/-- The load of thread `i`. -/
def loadOne (x : Iss) (len a i : Nat) (s : State) : Res Unit :=
  match iSpace x.w with
  | 0 =>
    match corePlace s x.loc x.g a len with
    | some p => (.ok (), awaitBytes x i len (coreRead p.core p.off len s) s)
    | none => (.ok (), s)
  | 1 => andThen (galLoad x.g.ch x.agent a len s) (fun bs t => (.ok (), awaitBytes x i len bs t))
  | 2 => andThen (bulkLoad x.g.ch x.agent a len false s) (fun bs t => (.ok (), awaitBytes x i len bs t))
  | _ =>
    match remoteLoad x.g.ch x.g.seq a (iHint x.w) ⟨x.loc, i, a % 256, len⟩ (await x i (len == 8) none s) with
    | (some bs, t) =>
      let f := fresh t
      (.ok (), deliverTo x.loc i (loadValue len bs f.1) f.2)
    | (none, t) => (.ok (), t)

/-- The work of LD. -/
def runLd (x : Iss) (s : State) : State :=
  let len := sizeOf_ x.w
  if 3 < iTy x.w then illegal x s
  else access x len true false [] (if len = 8 then [iD x.w, nextCode (iD x.w)] else [iD x.w])
    (fun s => eachThread x (memAddr x s) false (fun i => loadOne x len (memAddr x s i) i) x.path s) s

/-- LD. -/
def execLd (loc : Loc) (s : State) : Host.Outcome State Fault Refusal :=
  .next (issue loc (isOp 0x40) runLd s)

/-! ## ST (R151, R185, R198) -/

/-- The bytes that thread `i` stores. -/
def storeData (x : Iss) (s : State) (len i : Nat) : Bytes := natLe len (readPair (x.special s) i (x.thread i) (iD x.w))

/-- What the threads of a path store together, by address; of two threads the higher one's byte stays
(log entry 42). -/
def gathered (x : Iss) (s : State) (len : Nat) : Tab (Option W8) :=
  x.path.foldl (fun m i =>
    ((storeData x s len i).zipIdx).foldl (fun m' b => Tab.set none (memAddr x s i + b.2) (some b.1) m') m) []

/-- The code words that a path's stores touch, ascending. -/
def touched (x : Iss) (s : State) (word : Nat) : List Nat :=
  ((x.path.map (fun i => memAddr x s i / word * word)).eraseDups).mergeSort (fun a b => decide (a ≤ b))

/-- Whether every byte of a code word is written. -/
def covered (m : Tab (Option W8)) (word a : Nat) : Bool :=
  (List.range word).all (fun k => (Tab.get none (a + k) m).isSome)

/-- The bytes of a covered range. -/
def wordBytes (m : Tab (Option W8)) (a n : Nat) : Bytes :=
  (List.range n).map (fun k => (Tab.get none (a + k) m).getD 0)

/-- The code word that a thread's store belongs to (R151, R198). -/
def storeWord (x : Iss) (s : State) : Nat :=
  match iSpace x.w with
  | 1 => 32
  | 3 => remoteWord (memAddr x s (x.path.headD 0))
  | _ => 64

/-- The fault 0x0903 of a store that leaves a code word partly written. -/
def partFault (x : Iss) (s : State) (m : Tab (Option W8)) : Option GFault :=
  firstFault x (fun i =>
    let a := memAddr x s i
    let word := if iSpace x.w = 3 then remoteWord a else storeWord x s
    if covered m word (a / word * word) then none
    else some { code := 0x903, thread := i, addr := a,
                acc := some { code := 0x903, addr := a, space := iSpace x.w, write := true } })

/-- Joins adjoining code words of one line into runs, each one STORE packet (Table LNK-5). -/
def storeRuns (word : Nat) : List Nat → List (Nat × Nat)
  | [] => []
  | a :: l =>
    match storeRuns word l with
    | (b, n) :: r => if b = a + word ∧ a / 256 = b / 256 then (a, n + word) :: r else (a, word) :: (b, n) :: r
    | [] => [(a, word)]

/-- The threads of a path that store into a range. -/
def storersOf (x : Iss) (s : State) (a n : Nat) : List Waiter :=
  (x.path.filter (fun i => decide (a ≤ memAddr x s i ∧ memAddr x s i < a + n))).map (fun i => ⟨x.loc, i, 0, 0⟩)

/-- Stores code words one after another until one faults. -/
def storeEach (x : Iss) (s0 : State) (word : Nat) (put : Nat → State → Res Unit) : List Nat → State → State
  | [], s => s
  | a :: l, s =>
    match put a s with
    | (.ok (), t) => storeEach x s0 word put l t
    | (.error e, t) =>
      let i := (x.path.find? (fun i => memAddr x s0 i / word * word == a)).getD 0
      threadFault x i (memAddr x s0 i) true e t

/-- The stores of a path outside core space. -/
def storeWords (x : Iss) (s : State) (m : Tab (Option W8)) : State :=
  let n := x.g.ch
  advance x (fun _ t => t) (match iSpace x.w with
    | 1 => storeEach x s 32 (fun a t => galStore n x.agent a (wordBytes m a 32) t) (touched x s 32) s
    | 2 => storeEach x s 64 (fun a t => bulkStore n x.agent a (wordBytes m a 64) t) (touched x s 64) s
    | _ =>
      let gal := (touched x s 32).filter (fun a => remoteWord a == 32)
      let blk := (touched x s 64).filter (fun a => remoteWord a == 64)
      (storeRuns 32 gal ++ storeRuns 64 blk).foldl (fun t r =>
        remoteStore n x.g.seq r.1 (wordBytes m r.1 r.2) .store 0 t (storersOf x s r.1 r.2)) s)

/-- The work of ST. -/
def runSt (x : Iss) (s : State) : State :=
  let len := sizeOf_ x.w
  if 3 < iTy x.w then illegal x s
  else access x len false true (if len = 8 then [iD x.w, nextCode (iD x.w)] else [iD x.w]) []
    (fun s =>
      if iSpace x.w = 0 then
        advance x (fun _ t => t) (x.path.foldl (fun t i =>
          match corePlace s x.loc x.g (memAddr x s i) len with
          | some p => coreWrite p.core p.off (storeData x s len i) t
          | none => t) s)
      else
        let m := gathered x s len
        match partFault x s m with
        | some f => groupFault x.loc x.g f s
        | none => storeWords x s m) s

/-- ST. -/
def execSt (loc : Loc) (s : State) : Host.Outcome State Fault Refusal :=
  .next (issue loc (isOp 0x41) runSt s)

/-! ## CPY (R151) -/

/-- Bytes of a CPY. -/
def cpyLen (w : W64) : Nat := if iTy w = 4 then 32 else 64

/-- Whether SIZE is the code word of SPACE 1 or 2. CPY moves one whole code word, chosen by SIZE (R151); any other SIZE
or SPACE raises 0x0802, an illegal field, which the manual does not say (log entry 96). -/
def cpyOk (w : W64) : Bool := (iTy w == 4 && iSpace w == 1) || (iTy w == 5 && iSpace w == 2)

/-- The core-space address of a CPY: the register D (log entry 43). -/
def cpyCore (x : Iss) (s : State) (i : Nat) : Nat := (readCode (x.special s) i (x.thread i) (iD x.w)).toNat

/-- What is checked of thread `i` of a CPY: alignment of both addresses and the core-space side. -/
def cpyCheck (x : Iss) (s : State) (i : Nat) : Option GFault :=
  let len := cpyLen x.w
  let a := cpyCore x s i
  if a % len ≠ 0 then some { code := 0x805, thread := i, addr := a }
  else
    match coreFault x s a len (Config.cpyToCore x.w) i with
    | some f => some f
    | none => if Config.cpyToCore x.w then none else parityFault x s a len false i

/-- The move of thread `i`, in the direction that the part takes (log entry 43). -/
def cpyOne (x : Iss) (core : CorePlace) (a i : Nat) (s : State) : Res Unit :=
  let n := x.g.ch
  let len := cpyLen x.w
  if Config.cpyToCore x.w then
    andThen (if iSpace x.w = 1 then galLoad n x.agent a len s else bulkLoad n x.agent a len false s)
      (fun bs t => (.ok (), coreWrite core.core core.off bs t))
  else
    let bs := coreRead core.core core.off len s
    let _ := i
    if iSpace x.w = 1 then galStore n x.agent a bs s else bulkStore n x.agent a bs s

/-- The work of CPY. -/
def runCpy (x : Iss) (s : State) : State :=
  if !cpyOk x.w then illegal x s
  else access x (cpyLen x.w) false true [iD x.w] []
    (fun s =>
      match firstFault x (cpyCheck x s) with
      | some f => groupFault x.loc x.g f s
      | none =>
        advance x (fun _ t => t) (eachThread x (memAddr x s) (!Config.cpyToCore x.w) (fun i t =>
          match corePlace s x.loc x.g (cpyCore x s i) (cpyLen x.w) with
          | some p => cpyOne x p (memAddr x s i) i t
          | none => (.ok (), t)) x.path s)) s

/-- CPY. -/
def execCpy (loc : Loc) (s : State) : Host.Outcome State Fault Refusal :=
  .next (issue loc (isOp 0x42) runCpy s)

/-! ## ATOM and RED (R155, R156, R199) -/

/-- FUNC of an ATOM or RED. -/
def atomFunc (w : W64) : Nat := iTy w

/-- A function that is illegal where the instruction uses it: 0x0802, in remote space 0x0A01 (R164, R193). -/
def funcFault (x : Iss) (s : State) : State :=
  if iSpace x.w = 3 then
    let i := x.path.headD 0
    let a := memAddr x s i
    groupFault x.loc x.g { code := 0xA01, thread := i, addr := a,
                           acc := some { code := 0xA01, addr := a, space := 3, write := true } } s
  else illegal x s

/-- The operand of thread `i`: B, the pair at B for CAS64, D for HADD (Table THR-5). -/
def atomOperand (x : Iss) (s : State) (i : Nat) : Nat :=
  let c := if atomFunc x.w = 6 then iD x.w else iB x.w
  readPair (x.special s) i (x.thread i) c

/-- The compare value of thread `i`: D, the pair at D for CAS64. -/
def atomCmp (x : Iss) (s : State) (i : Nat) : Nat := readPair (x.special s) i (x.thread i) (iD x.w)

/-- Registers that an atomic reads besides its address. -/
def atomSrcs (w : W64) (ret : Bool) : List Nat :=
  if atomFunc w = 6 then [iD w]
  else if atomFunc w = 5 then [iB w, nextCode (iB w), iD w, nextCode (iD w)]
  else if atomFunc w = 4 then [iB w, iD w]
  else if ret then [iB w] else [iB w]

/-- A step on a core-space location: the old value. -/
def atomCore (p : CorePlace) (func operand cmp : Nat) (s : State) : Nat × State :=
  let w := atomWidth func
  let old := leNat (coreRead p.core p.off w s)
  (old, coreWrite p.core p.off (natLe w ((atomNew func old operand cmp).getD old)) s)

/-- The local step of thread `i` and its old value. -/
def atomLocal (x : Iss) (s0 : State) (i : Nat) (s : State) : Res Nat :=
  let func := atomFunc x.w
  let a := memAddr x s0 i
  let op := atomOperand x s0 i
  if iSpace x.w = 0 then
    match corePlace s x.loc x.g a (atomWidth func) with
    | some p => let r := atomCore p func op (atomCmp x s0 i) s
                (.ok r.1, r.2)
    | none => (.ok 0, s)
  else atomAt x.g.ch x.agent (iSpace x.w) a func op (atomCmp x s0 i) s

/-- The work of ATOM. -/
def runAtom (x : Iss) (s : State) : State :=
  let func := atomFunc x.w
  let len := atomWidth func
  if 5 < func then funcFault x s
  else access x len true true (atomSrcs x.w true) (if len = 8 then [iD x.w, nextCode (iD x.w)] else [iD x.w])
    (fun s => eachThread x (memAddr x s) true (fun i t =>
      if iSpace x.w = 3 then
        (.ok (), remoteAtomic x.g.ch x.g.seq (memAddr x s i) func (BitVec.ofNat 64 (operandOf func (atomOperand x s i)))
          (BitVec.ofNat 64 (if func = 4 ∨ func = 5 then operandOf func (atomCmp x s i) else 0))
          [⟨x.loc, i, 0, len⟩] (await x i (len == 8) none t))
      else andThen (atomLocal x s i t) (fun old u => (.ok (), await x i (len == 8) (some (BitVec.ofNat 64 old)) u)))
      x.path s) s
where
  /-- The operand as the packet carries it. -/
  operandOf (func v : Nat) : Nat := if func = 5 then v else v % 2 ^ 32

/-- Whether RED takes a function in its space (Table THR-5). -/
def redOk (w : W64) : Bool :=
  let f := atomFunc w
  if iSpace w = 3 then f == 0 || f == 1 || f == 3 || f == 6 else decide (f ≤ 3)

/-- The line function of a remote RED (Table ECH-3). -/
def redLine (func : Nat) : Nat := match func with | 0 => 2 | 1 => 3 | 3 => 0 | _ => 1

/-- The contribution of thread `i` to its line. -/
def redContrib (x : Iss) (s : State) (i : Nat) : Contrib :=
  let a := memAddr x s i
  let len := atomWidth (atomFunc x.w)
  { seq := x.g.seq, fn := redLine (atomFunc x.w), addr := BitVec.ofNat 64 (lineAddr a), hint := iHint x.w,
    mask := byteMask (a % 256) len, data := List.replicate (a % 256) 0 ++ natLe len (atomOperand x s i),
    threads := [(x.loc, i)] }

/-- Joins contributions of one instruction to one line, in order (R206). -/
def joinContrib (l : List Contrib) (k : Contrib) : List Contrib :=
  if l.any (fun j => j.addr == k.addr) then
    l.map (fun j => if j.addr = k.addr then
      { j with data := mergeLine k.fn j.data j.mask k.mask k.data, mask := j.mask ||| k.mask, threads := j.threads ++ k.threads }
      else j)
  else l ++ [k]

/-- The contributions of a path: one for each thread, or, in a chamber without an echo cache, one packet for each line
(R206). -/
def redContribs (x : Iss) (s : State) : List Contrib :=
  let ks := x.path.map (redContrib x s)
  if hasEcho s (chOf s x.g.ch) then ks else ks.foldl joinContrib []

/-- The work of RED. -/
def runRed (x : Iss) (s : State) : State :=
  let len := atomWidth (atomFunc x.w)
  if !redOk x.w then funcFault x s
  else access x len true true (atomSrcs x.w false) []
    (fun s => advance x (fun _ t => t) (
      if iSpace x.w = 3 then forAll (redContribs x s) (contribute x.g.ch) s
      else eachThread x (memAddr x s) true (fun i t =>
        andThen (atomLocal x s i t) (fun _ u => (.ok (), u))) x.path s)) s

/-- An ATOM command of a function; an ATOM of a function that no command names is found by any of them. -/
def isAtom (func : Nat) (w : W64) : Bool := isOp 0x43 w && (atomFunc w == func || decide (5 < atomFunc w))

/-- A RED command of a function; functions that RED never takes are found by any of them. -/
def isRed (func : Nat) (w : W64) : Bool :=
  isOp 0x44 w && (atomFunc w == func || !(decide (atomFunc w ≤ 3) || atomFunc w == 6))

/-- What a command of an ATOM does. -/
def runAtomCmd (loc : Loc) (func : Nat) (s : State) : Host.Outcome State Fault Refusal :=
  .next (issue loc (isAtom func) runAtom s)

/-- What a command of a RED does. -/
def runRedCmd (loc : Loc) (func : Nat) (s : State) : Host.Outcome State Fault Refusal :=
  .next (issue loc (isRed func) runRed s)

/-- ATOM.IADD. -/
def execAtomIadd (loc : Loc) (s : State) : Host.Outcome State Fault Refusal := runAtomCmd loc 0 s
/-- ATOM.IMAX. -/
def execAtomImax (loc : Loc) (s : State) : Host.Outcome State Fault Refusal := runAtomCmd loc 1 s
/-- ATOM.UMAX. -/
def execAtomUmax (loc : Loc) (s : State) : Host.Outcome State Fault Refusal := runAtomCmd loc 2 s
/-- ATOM.FADD. -/
def execAtomFadd (loc : Loc) (s : State) : Host.Outcome State Fault Refusal := runAtomCmd loc 3 s
/-- ATOM.CAS. -/
def execAtomCas (loc : Loc) (s : State) : Host.Outcome State Fault Refusal := runAtomCmd loc 4 s
/-- ATOM.CAS64. -/
def execAtomCas64 (loc : Loc) (s : State) : Host.Outcome State Fault Refusal := runAtomCmd loc 5 s
/-- RED.IADD. -/
def execRedIadd (loc : Loc) (s : State) : Host.Outcome State Fault Refusal := runRedCmd loc 0 s
/-- RED.IMAX. -/
def execRedImax (loc : Loc) (s : State) : Host.Outcome State Fault Refusal := runRedCmd loc 1 s
/-- RED.UMAX. -/
def execRedUmax (loc : Loc) (s : State) : Host.Outcome State Fault Refusal := runRedCmd loc 2 s
/-- RED.FADD. -/
def execRedFadd (loc : Loc) (s : State) : Host.Outcome State Fault Refusal := runRedCmd loc 3 s
/-- RED.HADD. -/
def execRedHadd (loc : Loc) (s : State) : Host.Outcome State Fault Refusal := runRedCmd loc 6 s

/-! ## FENCE and BAR (R153, R154) -/

/-- The work of FENCE (R153): at device and system scope a thread waits until its remote REDs have entered their lines,
at system scope also for the acknowledgements of its remote stores. Every other earlier access has been performed
(log entry 10). -/
def runFence (x : Iss) (s : State) : State :=
  let system := iScope x.w == 3
  advance x (fun i t =>
    if 2 ≤ iScope x.w ∧ openAccess s x.loc x.g system i then { t with wait := .ack system } else t) s

/-- FENCE. -/
def execFence (loc : Loc) (s : State) : Host.Outcome State Fault Refusal := .next (issue loc (isOp 0x45) runFence s)

/-- The work of BAR. -/
def runBar (x : Iss) (s : State) : State := settleBlock x.g (advance x (fun _ t => { t with wait := .bar }) s)

/-- BAR. -/
def execBar (loc : Loc) (s : State) : Host.Outcome State Fault Refusal := .next (issue loc (isOp 0x46) runBar s)

/-- Wakes the threads of a chamber that waited in a FENCE for accesses that are now performed. -/
def wakeFences (n : Nat) (s : State) : State :=
  { s with groups := s.groups.map (fun e => match e.2 with
      | some g =>
        if g.ch = n then
          let loc : Loc := ⟨Fin.ofNat 1024 (e.1 / 16), Fin.ofNat 16 (e.1 % 16)⟩
          (e.1, some { g with threads := g.threads.zipIdx.map (fun p =>
            match p.1.wait with
            | .ack system => if openAccess s loc g system p.2 then p.1 else { p.1 with wait := .run }
            | _ => p.1) })
        else e
      | none => e) }

end Sys2Proof.Machine
end

