-- ==== Sys2Proof/Machine/Remote.lean ====
section
/-! DEFINITION. Remote.lean: packets at the owner of remote memory (R196, R198, R204, R230) and answers at
the sender (R196, R204, R210, R229). Each command takes the oldest packet of its type that has arrived. -/
namespace Sys2Proof.Machine
open Sys2Proof

/-! ## At the owner -/

/-- What the owner answers besides OK (Table ECH-6). -/
inductive Refused where
  | stale | fault | notReady
  deriving DecidableEq, Repr

/-- Status code of a refusal. -/
def Refused.code : Refused → Nat
  | .stale => 1 | .fault => 2 | .notReady => 4

/-- The owner's side of a refused access (Table ECH-6): counts, events, and for a stale epoch the halt. -/
def refuseAccess (p : Packet) (r : Refused) (s : State) : State :=
  let n := p.dstCh
  match r with
  | .stale => haltCh n 0xA04 (event n 0xA04 0 []
      (modCh n (fun c => echFault 0xA04 0 (pktAddr p) 1 (caddPair 0x830 1 c)) s))
  | .fault => event n 0xA06 0 [] (modCh n (ccount 0x840 1) s)
  | .notReady => modCh n (ccount 0x840 1) s

/-- Answers a request with a status. -/
def acknowledge (p : Packet) (status : Nat) (old : W64) (s : State) : State := inject (ackOf s p status old) s

/-- Refuses a request and answers it. -/
def refuseWith (p : Packet) (r : Refused) (s : State) : State := acknowledge p r.code 0 (refuseAccess p r s)

/-- Check 2 of R204: the owner chamber is IDLE or RUNNING. -/
def ready (s : State) (p : Packet) : Bool := isIdle s p.dstCh || isRunning s p.dstCh

/-- A refusal for an access that faulted; an uncorrectable word raises 0x0F03 too (Table ECC-1). -/
def refuseFault (p : Packet) (e : MErr) (s : State) : State :=
  refuseWith p .fault (ifdo (e.code == 0xF02) (event p.dstCh 0xF03 0 []) s)

/-- Translates every code word of a range with W = 1 (R204 step 4). -/
def allWritable (n a len : Nat) (s : State) : Res Unit :=
  eachRes (fun g t => andThen (translate n (agent 6) g true false t) (fun _ u => (.ok (), u))) (granules 64 a len) s

/-- Reads whole code words of the owner's space under the checks of R204 step 4. -/
def ownerLoad (n ospace a len : Nat) (s : State) : Res Bytes :=
  if ospace = 1 then galLoad n (agent 6) a len s
  else andThen (allWritable n a len s) (fun _ t => bulkLoad n (agent 6) a len false t)

/-- Writes whole code words of the owner's space. -/
def ownerStore (n ospace a : Nat) (bs : Bytes) (s : State) : Res Unit :=
  if ospace = 1 then galStore n (agent 6) a bs s
  else andThen (allWritable n a bs.length s) (fun _ t => bulkStore n (agent 6) a bs t)

/-- The work of an arrived READ: its line, or a refusal (R196, R204). -/
def serveRead (p : Packet) (s : State) : State :=
  if !ready s p then refuseWith p .notReady s
  else
    match ownerLoad p.dstCh (pktOspace p) (pktAddr p % 2 ^ 48 / 256 * 256) 256 s with
    | (.ok bs, t) => inject (answer t p 8 (tagStatus (pktTag p) 0 ++ natLe 4 0 ++ bs)) t
    | (.error e, t) => refuseFault p e t

/-- The work of an arrived STORE (R198, R204). -/
def serveStore (p : Packet) (s : State) : State :=
  if !ready s p then refuseWith p .notReady s
  else
    match ownerStore p.dstCh (pktOspace p) (pktAddr p % 2 ^ 48) (p.body.drop 12) s with
    | (.ok (), t) => acknowledge p 0 0 t
    | (.error e, t) => refuseFault p e t

/-- FUNC of an ATOMIC packet. -/
def pktFunc (p : Packet) : Nat := at_ p.body 8 4 / 2 ^ 20 % 16

/-- The work of an arrived ATOMIC (R198, R204); a function that no ATOM has and a misaligned address are
refused FAULT (log entry 44). -/
def serveAtomic (p : Packet) (s : State) : State :=
  let a := pktAddr p % 2 ^ 48
  if !ready s p then refuseWith p .notReady s
  else if 5 < pktFunc p ∨ a % atomWidth (pktFunc p) ≠ 0 then refuseWith p .fault s
  else
    match atomAt p.dstCh (agent 6) (if pktOspace p = 1 then 1 else 2) a (pktFunc p) (at_ p.body 16 8) (at_ p.body 24 8) s with
    | (.ok old, t) => acknowledge p 0 (BitVec.ofNat 64 old) t
    | (.error e, t) => refuseFault p e t

/-- The work of an arrived SIGNAL (R230). -/
def serveSignal (p : Packet) (s : State) : State :=
  let n := p.dstCh
  let k := at_ p.body 4 2
  if !ready s p then refuseWith p .notReady s
  else if 4095 < k then refuseWith p .fault s
  else
    let v := signalValue (chOf s n) k (at_ p.body 6 1) (BitVec.ofNat 32 (at_ p.body 8 4))
    acknowledge p 0 0 (noteWaits n (changeCounter n k v s))

/-- FUNC, MASK and DATA of a REDUCE packet (Table LNK-6). -/
def redFunc (p : Packet) : Nat := at_ p.body 6 1 / 2 % 4
/-- Whether FULL = 1. -/
def redFull (p : Packet) : Bool := at_ p.body 6 1 / 8 % 2 == 1
/-- Element mask. -/
def redMask (p : Packet) : BitVec 128 :=
  if redFull p then BitVec.allOnes 128 else BitVec.ofNat 128 (at_ p.body 16 16)
/-- Line data. -/
def redData (p : Packet) : Bytes := p.body.drop (if redFull p then 16 else 32)
/-- EPOCH. -/
def redEpoch (p : Packet) : Nat := at_ p.body 8 2

/-- The code words of a line that hold masked elements. -/
def maskedWords (word : Nat) (mask : BitVec 128) : List Nat :=
  ((List.range (256 / word)).map (· * word)).filter (fun o => mask &&& byteMask o word != 0)

/-- Reads the masked code words of a line: offset and contents of each. -/
def maskedLoad (n ospace la : Nat) : List Nat → State → Res (List (Nat × Bytes))
  | [], s => (.ok [], s)
  | o :: l, s =>
    andThen (ownerLoad n ospace (la + o) (if ospace = 1 then 32 else 64) s) (fun bs t =>
      andThen (maskedLoad n ospace la l t) (fun r u => (.ok ((o, bs) :: r), u)))

/-- Combines a reduction into one code word, owner value first (R204). -/
def combineWord (fn : Nat) (mask : BitVec 128) (data : Bytes) (o : Nat) (old : Bytes) : Bytes :=
  slice (mergeLine fn (List.replicate o 0 ++ old) (BitVec.allOnes 128) mask data) o old.length

/-- The work of an arrived REDUCE (R204): nothing is applied unless every masked word can be read. -/
def serveReduce (p : Packet) (s : State) : State :=
  let n := p.dstCh
  let ospace := pktOspace p
  let la := pktAddr p % 2 ^ 48 / 256 * 256
  let word := if ospace = 1 then 32 else 64
  if !ready s p then refuseWith p .notReady s
  else if redEpoch p ≠ fld (creg s n 0x808) 15 0 then refuseWith p .stale s
  else
    match (if ospace = 1 then (if winSize s (chOf s n) < la + 256 then
        ((.error { code := 0x902, addr := la, space := 1, write := true } : Except MErr Unit), s) else (.ok (), s))
      else allWritable n la 256 s) with
    | (.error e, t) => refuseFault p e t
    | (.ok (), t) =>
      match maskedLoad n ospace la (maskedWords word (redMask p)) t with
      | (.error e, u) => refuseFault p e u
      | (.ok olds, u) =>
        acknowledge p 0 0 (olds.foldl (fun v (w : Nat × Bytes) =>
          (ownerStore n ospace (la + w.1) (combineWord (redFunc p) (redMask p) (redData p) w.1 w.2) v).2) u)

/-- Takes the oldest arrived packet of a type and handles it; with none there, nothing happens. -/
def withArrived (ptype : Nat) (serve : Packet → State → State) (s : State) : Host.Outcome State Fault Refusal :=
  match takeArrived ptype s with
  | some (p, t) => .next (serve p t)
  | none => .next s

/-- Takes the oldest arrived request of a type and handles it, if the response queue has room for its answer (R288);
with none there, or no room, nothing happens. -/
def withRoom (ptype : Nat) (serve : Packet → State → State) (s : State) : Host.Outcome State Fault Refusal :=
  match s.arrived.find? (fun p => p.ptype == ptype) with
  | some p => if answerRoom s p then withArrived ptype serve s else .next s
  | none => .next s

/-- READ. -/
def execRead (s : State) : Host.Outcome State Fault Refusal := withRoom 1 serveRead s
/-- STORE. -/
def execStore (s : State) : Host.Outcome State Fault Refusal := withRoom 2 serveStore s
/-- ATOMIC. -/
def execAtomic (s : State) : Host.Outcome State Fault Refusal := withRoom 3 serveAtomic s
/-- SIGNAL_PACKET. -/
def execSignalPacket (s : State) : Host.Outcome State Fault Refusal := withRoom 4 serveSignal s
/-- REDUCE_PACKET. -/
def execReducePacket (s : State) : Host.Outcome State Fault Refusal := withRoom 0x10 serveReduce s

/-! ## At the sender -/

/-- Removes a request, and the draining line that it was the packet of. -/
def dropReq (r : Req) (c : Chamber) : Chamber :=
  { c with reqs := c.reqs.filter (fun q => q.tag != r.tag),
           lines := c.lines.filter (fun l => !(l.st == .draining && l.tag == r.tag && r.kind == .reduce)) }

/-- What the end of a request lets go on: waiting packets and allocations, fences, operations. -/
def afterReq (n : Nat) (s : State) : State :=
  settleAll n (wakeFences n (retryAlloc n (releaseLines n (releaseReqs n s))))

/-- A fault of a request charges its operation, but for an EPOCH, which the halt cancels (R256). -/
def echoFail (n : Nat) (r : Req) (code : Nat) (s : State) : State :=
  let reg := echFault code r.seq.toNat r.addr.toNat 0
  match opOf (chOf s n) r.seq with
  | some o =>
    if opType o = 9 then haltCh n code (event n code r.seq.toNat [] (modCh n reg s))
    else failOp n r.seq .fault code [] reg s
  | none => failOp n r.seq .fault code [] reg s

/-- A refused request at its sender (Table ECH-6, R229): 0x0A05 for STALE, otherwise 0x0A02. -/
def requestFailed (n : Nat) (r : Req) (status : Nat) (s : State) : State :=
  echoFail n r (if status = 1 then 0xA05 else 0xA02) s

/-- A tag of a request from before the chamber last entered CLEARING: the answer is discarded (R210). -/
def oldAnswer (n tag : Nat) (s : State) : State := modCh n (fun c => { c with oldTags := c.oldTags.erase tag }) s

/-- What an acknowledgement OK completes, by the kind of request. -/
def acked (n : Nat) (r : Req) (old : W64) (s : State) : State :=
  match r.kind with
  | .atomic => r.waiters.foldl (fun t w => deliverTo w.loc w.thread old t) s
  | .streamStore => streamProgress n r.stream s
  | _ => s

/-- An arrived ACK. -/
def serveAck (p : Packet) (s0 : State) : State :=
  let n := p.dstCh
  let tag := pktTag p
  let s := bump (66 + leaderDie (chOf s0 n)) 8 1 s0
  if (chOf s n).oldTags.contains tag then oldAnswer n tag s
  else
    match reqOf (chOf s n) tag with
    | none => s
    | some r =>
      let t := modCh n (dropReq r) s
      if r.late then afterReq n t
      else if pktStatus p = 0 then afterReq n (acked n r (BitVec.ofNat 64 (at_ p.body 8 8)) t)
      else afterReq n (requestFailed n r (pktStatus p) t)

/-- ACK (R204). -/
def execAck (s : State) : Host.Outcome State Fault Refusal := withArrived 9 serveAck s

/-- The data of a returned line for the loads that wait for it. -/
def deliverLine (r : Req) (line : Bytes) (s : State) : State :=
  r.waiters.foldl (fun t w =>
    let f := fresh t
    deliverTo w.loc w.thread (loadValue w.len (slice line w.off w.len) f.1) f.2) s

/-- A returned line: for the loads that wait, and installed; or the source bytes of a stream (R196, R197,
R236). -/
def lineReturned (n : Nat) (r : Req) (line : Bytes) (s : State) : State :=
  match r.kind with
  | .fill => installLine n r line (deliverLine r line s)
  | .streamRead =>
    let t := streamAt (chOf s n) r.stream
    let a := t.src.toNat + arrivedBytes t
    if t.seq = r.seq ∧ lineAddr a = r.addr.toNat then
      askBurst n r.stream (streamBytesIn n r.stream ((line.drop (a % 256)).take (burstLen t)) s)
    else askBurst n r.stream s
  | _ => s

/-- An arrived READ_DATA. -/
def serveData (p : Packet) (s : State) : State :=
  let n := p.dstCh
  let tag := pktTag p
  if (chOf s n).oldTags.contains tag then oldAnswer n tag s
  else
    match reqOf (chOf s n) tag with
    | none => s
    | some r =>
      let t := modCh n (dropReq r) s
      if r.late then afterReq n t
      else if pktStatus p = 0 then afterReq n (lineReturned n r (p.body.drop 8) t)
      else afterReq n (requestFailed n r (pktStatus p) t)

/-- READ_DATA (R196). -/
def execReadData (s : State) : Host.Outcome State Fault Refusal := withArrived 8 serveData s

/-- ACK_DEADLINE (R210): a request whose deadline has passed raises 0x0A03 and halts the chamber; a later
answer to it only frees its line. -/
def execAckDeadline (ch : Fin 32) (tag : BitVec 20) (s : State) : Host.Outcome State Fault Refusal :=
  let n := ch.val
  match reqOf (chOf s n) tag.toNat with
  | some r =>
    if r.sent ∧ !r.late ∧ r.deadline.toNat ≤ now s then
      let t := modCh n (fun c => { c with reqs := c.reqs.map (fun q => if q.tag = r.tag then { q with late := true } else q) }) s
      .next (settleAll n (echoFail n r 0xA03 t))
    else .next s
  | none => .next s

end Sys2Proof.Machine
end

