-- ==== Sys2Proof/Machine/Vector.lean ====
section
/-! DEFINITION. Vector.lean: the register instructions of threads: integer, FP32, BF16 pairs, conversions,
special functions, special registers and spark (R83, R140, R159 to R163). -/
namespace Sys2Proof.Machine
open Sys2Proof

/-! ## Shapes -/

/-- Value `k` of those read. -/
def arg (vs : List W32) (k : Nat) : W32 := vs.getD k 0

/-- The second source: B, or IMM in the I form (R162). -/
def srcB (w : W64) (vs : List W32) : W32 := if isI w then iImm w else arg vs 1

/-- An instruction of A alone. -/
def aluA (f : W32 → W32) : Alu := { srcs := fun w => [iA w], res := fun _ vs _ => [f (arg vs 0)] }

/-- An instruction of A and of B or IMM. -/
def aluAB (f : W64 → W32 → W32 → W64 → W32) (ok : W64 → Bool := fun _ => true) : Alu :=
  { ok := ok, srcs := fun w => if isI w then [iA w] else [iA w, iB w],
    res := fun w vs fr => [f w (arg vs 0) (srcB w vs) fr] }

/-- An instruction of A, B and C. -/
def aluABC (f : W64 → W32 → W32 → W32 → W32) (ok : W64 → Bool := fun _ => true) : Alu :=
  { ok := ok, srcs := fun w => [iA w, iB w, iC w],
    res := fun w vs _ => [f w (arg vs 0) (arg vs 1) (arg vs 2)] }

/-- TYPE S32 or U32, for the instructions that follow TYPE (R163; log entry 36). -/
def intType (w : W64) : Bool := iTy w == 0 || iTy w == 1

/-- Whether TYPE is S32. -/
def isSigned (w : W64) : Bool := iTy w == 0

/-- An operand as the integer that TYPE names. -/
def typed (w : W64) (v : W32) : Int := if isSigned w then v.toInt else (v.toNat : Int)

/-! ## Integer (R163) -/

/-- ADD.W. -/
def execAddW (loc : Loc) (s : State) : Host.Outcome State Fault Refusal :=
  runAlu loc 0x01 (aluAB (fun _ a b _ => a + b)) s
/-- SUB.W. -/
def execSubW (loc : Loc) (s : State) : Host.Outcome State Fault Refusal :=
  runAlu loc 0x02 (aluAB (fun _ a b _ => a - b)) s
/-- MUL.W. -/
def execMulW (loc : Loc) (s : State) : Host.Outcome State Fault Refusal :=
  runAlu loc 0x03 (aluAB (fun _ a b _ => a * b)) s
/-- MULHI.W: upper half of the 64-bit product of the operands as TYPE names them (log entry 36). -/
def mulhi (w : W64) (a b : W32) : W32 := BitVec.ofInt 32 (typed w a * typed w b / 2 ^ 32)
/-- MULHI.W. -/
def execMulhiW (loc : Loc) (s : State) : Host.Outcome State Fault Refusal :=
  runAlu loc 0x04 (aluAB (fun w a b _ => mulhi w a b) intType) s
/-- MAC.W. -/
def execMacW (loc : Loc) (s : State) : Host.Outcome State Fault Refusal :=
  runAlu loc 0x05 (aluABC (fun _ a b c => a * b + c)) s
/-- AND. -/
def execAndB (loc : Loc) (s : State) : Host.Outcome State Fault Refusal :=
  runAlu loc 0x06 (aluAB (fun _ a b _ => a &&& b)) s
/-- OR. -/
def execOrB (loc : Loc) (s : State) : Host.Outcome State Fault Refusal :=
  runAlu loc 0x07 (aluAB (fun _ a b _ => a ||| b)) s
/-- XOR. -/
def execXorB (loc : Loc) (s : State) : Host.Outcome State Fault Refusal :=
  runAlu loc 0x08 (aluAB (fun _ a b _ => a ^^^ b)) s

/-- A shift by `b`: below 32 as `f` gives it; the result of a longer shift is not stated and is free
(log entry 37). -/
def shiftBy (f : W32 → Nat → W32) (a b : W32) (free : W64) : W32 :=
  if b.toNat < 32 then f a b.toNat else lo32 free.toNat
/-- SHL. -/
def execShl (loc : Loc) (s : State) : Host.Outcome State Fault Refusal :=
  runAlu loc 0x09 (aluAB (fun _ a b f => shiftBy (fun x n => x <<< n) a b f)) s
/-- SHR. -/
def execShr (loc : Loc) (s : State) : Host.Outcome State Fault Refusal :=
  runAlu loc 0x0A (aluAB (fun _ a b f => shiftBy (fun x n => x >>> n) a b f)) s
/-- SHRA. -/
def execShra (loc : Loc) (s : State) : Host.Outcome State Fault Refusal :=
  runAlu loc 0x0B (aluAB (fun _ a b f => shiftBy (fun x n => x.sshiftRight n) a b f)) s
/-- MIN.W. -/
def execMinW (loc : Loc) (s : State) : Host.Outcome State Fault Refusal :=
  runAlu loc 0x0C (aluAB (fun w a b _ => if typed w a ≤ typed w b then a else b) intType) s
/-- MAX.W. -/
def execMaxW (loc : Loc) (s : State) : Host.Outcome State Fault Refusal :=
  runAlu loc 0x0D (aluAB (fun w a b _ => if typed w a ≤ typed w b then b else a) intType) s

/-- The condition of CMP.W and CMP.F on the sign of a comparison (R162). -/
def condOf (k : Nat) (c : Int) : Bool :=
  match k with
  | 0 => c == 0
  | 1 => c != 0
  | 2 => decide (c < 0)
  | 3 => decide (c ≤ 0)
  | 4 => decide (0 < c)
  | _ => decide (0 ≤ c)
/-- MOD[2:0] of a compare. -/
def cmpCond (w : W64) : Nat := iMod w % 8
/-- CMP.W. -/
def execCmpW (loc : Loc) (s : State) : Host.Outcome State Fault Refusal :=
  runAlu loc 0x0E (aluAB (fun w a b _ => if condOf (cmpCond w) (typed w a - typed w b) then 1 else 0)
    (fun w => intType w && decide (cmpCond w ≤ 5))) s
/-- PICK: B if bit 0 of C is 1, else A. IMM takes C's place too in the I form, and the manual does not say
which condition then applies: it is free (log entry 38). -/
def execPick (loc : Loc) (s : State) : Host.Outcome State Fault Refusal :=
  runAlu loc 0x0F { srcs := fun w => if isI w then [iA w] else [iA w, iB w, iC w],
                    res := fun w vs fr =>
                      let c0 := if isI w then fr.getLsbD 0 else (arg vs 2).getLsbD 0
                      [if c0 then srcB w vs else arg vs 0] } s
/-- A sum limited to the range of TYPE. -/
def addSat (w : W64) (a b : W32) : W32 :=
  let v := typed w a + typed w b
  if isSigned w then BitVec.ofInt 32 (max (-(2 ^ 31)) (min v (2 ^ 31 - 1))) else BitVec.ofInt 32 (min v (2 ^ 32 - 1))
/-- ADDSAT.W. -/
def execAddsatW (loc : Loc) (s : State) : Host.Outcome State Fault Refusal :=
  runAlu loc 0x10 (aluAB (fun w a b _ => addSat w a b) intType) s
/-- Number of set bits. -/
def popCount (a : W32) : Nat := (bits32 a).length
/-- BITCNT. -/
def execBitcnt (loc : Loc) (s : State) : Host.Outcome State Fault Refusal :=
  runAlu loc 0x11 (aluA (fun a => lo32 (popCount a))) s
/-- Number of leading zero bits, 32 for 0. -/
def leadZeros (a : W32) : Nat := if a = 0 then 32 else 31 - Nat.log2 a.toNat
/-- LZCNT. -/
def execLzcnt (loc : Loc) (s : State) : Host.Outcome State Fault Refusal :=
  runAlu loc 0x12 (aluA (fun a => lo32 (leadZeros a))) s
/-- COPY; what the I form copies is a constant of the part (log entry 39). -/
def execCopy (loc : Loc) (s : State) : Host.Outcome State Fault Refusal :=
  runAlu loc 0x13 { srcs := fun w => [iA w],
                    res := fun w vs _ => [if isI w ∧ Config.copyImmediate then iImm w else arg vs 0] } s
/-- NOP. -/
def execNop (loc : Loc) (s : State) : Host.Outcome State Fault Refusal :=
  runAlu loc 0x1F { srcs := fun _ => [], dsts := fun _ => [], res := fun _ _ _ => [] } s

/-! ## FP32 (R83, R140) -/

/-- ADD.F. -/
def execAddF (loc : Loc) (s : State) : Host.Outcome State Fault Refusal :=
  runAlu loc 0x20 (aluAB (fun _ a b _ => addF a b)) s
/-- SUB.F. -/
def execSubF (loc : Loc) (s : State) : Host.Outcome State Fault Refusal :=
  runAlu loc 0x21 (aluAB (fun _ a b _ => subF a b)) s
/-- MUL.F. -/
def execMulF (loc : Loc) (s : State) : Host.Outcome State Fault Refusal :=
  runAlu loc 0x22 (aluAB (fun _ a b _ => mulF a b)) s
/-- MAC.F. -/
def execMacF (loc : Loc) (s : State) : Host.Outcome State Fault Refusal :=
  runAlu loc 0x23 (aluABC (fun _ a b c => macF a b c)) s
/-- MAC.F2: two fused multiply-adds on register pairs that start at even codes (R140). -/
def execMacF2 (loc : Loc) (s : State) : Host.Outcome State Fault Refusal :=
  runAlu loc 0x24 { ok := fun w => iA w % 2 == 0 && iB w % 2 == 0 && iC w % 2 == 0,
                    srcs := fun w => [iA w, iB w, iC w, nextCode (iA w), nextCode (iB w), nextCode (iC w)],
                    dsts := fun w => [iD w, nextCode (iD w)],
                    res := fun _ vs _ => [macF (arg vs 0) (arg vs 1) (arg vs 2), macF (arg vs 3) (arg vs 4) (arg vs 5)] } s
/-- MIN.F (log entry 13). -/
def execMinF (loc : Loc) (s : State) : Host.Outcome State Fault Refusal :=
  runAlu loc 0x25 (aluAB (fun _ a b f => minMaxF true (f.getLsbD 0) a b)) s
/-- MAX.F (log entry 13). -/
def execMaxF (loc : Loc) (s : State) : Host.Outcome State Fault Refusal :=
  runAlu loc 0x26 (aluAB (fun _ a b f => minMaxF false (f.getLsbD 0) a b)) s
/-- CMP.F: with a NaN operand 0, but 1 under NE (R162). -/
def cmpF (k : Nat) (a b : W32) : Bool :=
  match cmpX (x32 a) (x32 b) with
  | some c => condOf k c
  | none => k == 1
/-- CMP.F. -/
def execCmpF (loc : Loc) (s : State) : Host.Outcome State Fault Refusal :=
  runAlu loc 0x27 (aluAB (fun w a b _ => if cmpF (cmpCond w) a b then 1 else 0) (fun w => decide (cmpCond w ≤ 5))) s

/-! ## BF16 pairs (R83) -/

/-- The low or high half of a register. -/
def half (a : W32) (k : Nat) : W16 := BitVec.ofNat 16 (a.toNat / 2 ^ (16 * k))
/-- Two halves as a register. -/
def halves (f : Nat → W16) : W32 := lo32 ((f 0).toNat + (f 1).toNat * 2 ^ 16)
/-- ADD.B2. -/
def execAddB2 (loc : Loc) (s : State) : Host.Outcome State Fault Refusal :=
  runAlu loc 0x28 (aluAB (fun _ a b _ => halves (fun k => rb (addX (xb (half a k)) (xb (half b k)))))) s
/-- MUL.B2. -/
def execMulB2 (loc : Loc) (s : State) : Host.Outcome State Fault Refusal :=
  runAlu loc 0x29 (aluAB (fun _ a b _ => halves (fun k => rb (mulX (xb (half a k)) (xb (half b k)))))) s
/-- MAC.B2. -/
def execMacB2 (loc : Loc) (s : State) : Host.Outcome State Fault Refusal :=
  runAlu loc 0x2A (aluABC (fun _ a b c =>
    halves (fun k => rb (addX (mulX (xb (half a k)) (xb (half b k))) (xb (half c k)))))) s

/-! ## Conversions (R160) -/

/-- MOD[7]: stochastic rounding with bits [15:0] of C as R. -/
def useSr (w : W64) : Bool := decide (128 ≤ iMod w)

/-- Rounding mode of a vector conversion. -/
def vecMode (w : W64) (c : W32) : Rnd := if useSr w then .sr (c.toNat % 65536) else .rne

/-- Source and target TYPE codes of CONV that Table NUM-7 or R160 provides for. -/
def convOk (w : W64) : Bool :=
  let src := iMod w % 16
  let dst := iTy w
  (src == 2 && (dst == 2 || dst == 3 || dst == 0 || dst == 8)) || (src == 0 && (dst == 0 || dst == 2 || dst == 8)) ||
  (src == 3 && dst == 2)

/-- The value of CONV; the upper half of a BF16 result is not stated (log entry 40). BF16 to FP32 is exact, and a NaN is
the NaN of R72. -/
def convVal (w : W64) (a b c : W32) (free : W64) : W32 :=
  let mode := vecMode w c
  match iMod w % 16, iTy w with
  | 2, 3 => lo32 ((convScalar false 7 0 mode a).1 + free.toNat % 2 ^ 16 * 2 ^ 16)
  | 2, 8 => BitVec.ofInt 32 (toIntSat (-128) 127 mode (x32 a)).1
  | 2, 0 => lo32 (convScalar false 9 0 mode a).1
  | 2, _ => lo32 (convScalar false 8 0 mode a).1
  | 0, 8 => (BitVec.ofNat 8 (convScalar true 6 (b.toNat % 32) mode a).1).signExtend 32
  | 0, 2 => lo32 (convScalar true 8 0 mode a).1
  | 0, _ => a
  | _, _ => r32 (xb (half a 0))

/-- CONV, the vector instruction. -/
def execConvInstruction (loc : Loc) (s : State) : Host.Outcome State Fault Refusal :=
  runAlu loc 0x30 { ok := convOk,
                    srcs := fun w => [iA w] ++ (if iMod w % 16 = 0 ∧ iTy w = 8 then [iB w] else [0]) ++
                      (if useSr w then [iC w] else [0]),
                    res := fun w vs f => [convVal w (arg vs 0) (arg vs 1) (arg vs 2) f] } s

/-- The element format of an FB TYPE code (R162): FB4, FB6, FB8e4, FB8e5. -/
def fbOf (w : W64) : Option Elt := if 4 ≤ iTy w ∧ iTy w ≤ 7 then eltOf (iTy w - 3) else none

/-- The 32 codes and the scale byte of a QBLK over the group (R79, R160). -/
def qblkConv (x : Iss) (s : State) (f : Elt) : Conv :=
  let sp := x.special s
  let val := fun (c i : Nat) => if x.path.contains i then readCode sp i (x.thread i) c else 0
  quantBlock f ((List.range 32).map (val (iA x.w)))
    ((List.range 32).map (fun i => vecMode x.w (if useSr x.w then val (iC x.w) i else 0)))

/-- The work of QBLK. -/
def runQblk (x : Iss) (s : State) : State :=
  match fbOf x.w with
  | none => illegal x s
  | some f =>
    match codeFault x s ([iA x.w] ++ (if useSr x.w then [iC x.w] else [])) [iD x.w] with
    | some e => groupFault x.loc x.g e s
    | none =>
      let q := qblkConv x s f
      let sp := x.special s
      let d := x.depth s
      advance x (fun i t =>
        writeCode d (iD x.w) (lo32 (q.codes.getD i 0 + q.scale * 256))
          (latchTime sp (iA x.w) (if useSr x.w then latchTime sp (iC x.w) t else t))) s

/-- QBLK. -/
def execQblk (loc : Loc) (s : State) : Host.Outcome State Fault Refusal := .next (issue loc (isOp 0x31) runQblk s)

/-- DQBLK. -/
def execDqblk (loc : Loc) (s : State) : Host.Outcome State Fault Refusal :=
  runAlu loc 0x32 (aluAB (fun w a b _ =>
    match fbOf w with
    | some f => r32 (decodeElt f (a.toNat % 2 ^ f.bits) (b.toNat % 256))
    | none => 0) (fun w => (fbOf w).isSome)) s

/-! ## Special functions (R159), special registers, spark (R161) -/

/-- RECIP. -/
def execRecip (loc : Loc) (s : State) : Host.Outcome State Fault Refusal :=
  runAlu loc 0x38 (aluA (fun a => r32 (recipX (x32 a)))) s
/-- RSQRT. -/
def execRsqrt (loc : Loc) (s : State) : Host.Outcome State Fault Refusal :=
  runAlu loc 0x39 (aluA (fun a => r32 (rsqrtX (x32 a)))) s
/-- SQRT. -/
def execSqrt (loc : Loc) (s : State) : Host.Outcome State Fault Refusal :=
  runAlu loc 0x3A (aluA (fun a => r32 (sqrtX (x32 a)))) s
/-- EXP2. -/
def execExp2 (loc : Loc) (s : State) : Host.Outcome State Fault Refusal :=
  runAlu loc 0x3B (aluA (fun a => r32 (exp2X (x32 a)))) s
/-- LOG2. -/
def execLog2 (loc : Loc) (s : State) : Host.Outcome State Fault Refusal :=
  runAlu loc 0x3C (aluA (fun a => r32 (log2X (x32 a)))) s
/-- GETSR: the special register whose code is A, 48 to 60. -/
def execGetsr (loc : Loc) (s : State) : Host.Outcome State Fault Refusal :=
  runAlu loc 0x3F { aluA id with ok := fun w => decide (48 ≤ iA w ∧ iA w ≤ 60) } s

/-- The four words of a SPARK: domain B[30:0], position the pair at A (Table OPT-1). -/
def sparkWords (x : Special) (sub lo hi : W32) : List W32 :=
  let q := spark4 (BitVec.ofNat 64 x.seed) (lo32 x.stream) (lo32 (sub.toNat % 2 ^ 31))
    (BitVec.ofNat 64 (lo.toNat + 2 ^ 32 * hi.toNat))
  [q.1, q.2.1, q.2.2.1, q.2.2.2]

/-- SPARK on a path. -/
def runSpark (x : Iss) (s : State) : State :=
  let sp := x.special s
  alu { ok := fun w => decide (8 ≤ iD w ∧ iD w < 40 ∧ iD w % 4 = 0),
        srcs := fun w => [iB w, iA w, nextCode (iA w)],
        dsts := fun w => [iD w, iD w + 1, iD w + 2, iD w + 3],
        res := fun _ vs _ => sparkWords sp (arg vs 0) (arg vs 1) (arg vs 2) } x s
/-- SPARK. -/
def execSpark (loc : Loc) (s : State) : Host.Outcome State Fault Refusal := .next (issue loc (isOp 0x61) runSpark s)

end Sys2Proof.Machine
end

