-- ==== Sys2Proof/Machine/Dispatch.lean ====
section
/-! DEFINITION. Dispatch.lean: one arm per command, each a call of its meaning (95_what_each_step_holds.md). -/
namespace Sys2Proof.Machine
open Sys2Proof

def exec (i : Instr) (s : State) : Host.Outcome State Fault Refusal :=
  match i with
  | .registerWrite fn off data => Sys2Proof.Machine.execRegisterWrite fn off data s
  | .counterLowRead fn off len => Sys2Proof.Machine.execCounterLowRead fn off len s
  | .timeFlit port flit errs => Sys2Proof.Machine.execTimeFlit port flit errs s
  | .program slot => Sys2Proof.Machine.execProgram slot s
  | .clearingComplete ch => Sys2Proof.Machine.execClearingComplete ch s
  | .enable fn ch => Sys2Proof.Machine.execEnable fn ch s
  | .halt fn ch => Sys2Proof.Machine.execHalt fn ch s
  | .reset fn ch => Sys2Proof.Machine.execReset fn ch s
  | .ownerLock fn ch => Sys2Proof.Machine.execOwnerLock fn ch s
  | .okeyWrite fn ch n v => Sys2Proof.Machine.execOkeyWrite fn ch n v s
  | .rwaWrite fn off v => Sys2Proof.Machine.execRwaWrite fn off v s
  | .propose fn scope => Sys2Proof.Machine.execPropose fn scope s
  | .submit fn scope => Sys2Proof.Machine.execSubmit fn scope s
  | .cancel fn scope => Sys2Proof.Machine.execCancel fn scope s
  | .discard fn scope => Sys2Proof.Machine.execDiscard fn scope s
  | .apvWrite sess scope off v => Sys2Proof.Machine.execApvWrite sess scope off v s
  | .apvPropose sess scope => Sys2Proof.Machine.execApvPropose sess scope s
  | .apvSubmit sess scope rec => Sys2Proof.Machine.execApvSubmit sess scope rec s
  | .apvCancel sess scope => Sys2Proof.Machine.execApvCancel sess scope s
  | .apvRead sess scope => Sys2Proof.Machine.execApvRead sess scope s
  | .apvDeadline scope => Sys2Proof.Machine.execApvDeadline scope s
  | .apvCommitComplete scope => Sys2Proof.Machine.execApvCommitComplete scope s
  | .flowstoneWrite index v => Sys2Proof.Machine.execFlowstoneWrite index v s
  | .rotationUnitRewrite ch => Sys2Proof.Machine.execRotationUnitRewrite ch s
  | .debugRead die => Sys2Proof.Machine.execDebugRead die s
  | .debugReadComplete die => Sys2Proof.Machine.execDebugReadComplete die s
  | .negotiateAlgorithms asym hash dhe aead => Sys2Proof.Machine.execNegotiateAlgorithms asym hash dhe aead s
  | .getDigests sess => Sys2Proof.Machine.execGetDigests sess s
  | .getCertificate sess slot off len => Sys2Proof.Machine.execGetCertificate sess slot off len s
  | .challenge sess slot => Sys2Proof.Machine.execChallenge sess slot s
  | .getMeasurements sess index => Sys2Proof.Machine.execGetMeasurements sess index s
  | .keyExchange slot reqId => Sys2Proof.Machine.execKeyExchange slot reqId s
  | .finish id => Sys2Proof.Machine.execFinish id s
  | .endSession id => Sys2Proof.Machine.execEndSession id s
  | .heartbeat id => Sys2Proof.Machine.execHeartbeat id s
  | .keyUpdate id op => Sys2Proof.Machine.execKeyUpdate id op s
  | .doorbell fn ch list v => Sys2Proof.Machine.execDoorbell fn ch list v s
  | .registerWriteRelease fn => Sys2Proof.Machine.execRegisterWriteRelease fn s
  | .descriptorFetch ch list => Sys2Proof.Machine.execDescriptorFetch ch list s
  | .operationStart ch list engine => Sys2Proof.Machine.execOperationStart ch list engine s
  | .operationRetire ch seq => Sys2Proof.Machine.execOperationRetire ch seq s
  | .matmul ch seq => Sys2Proof.Machine.execMatmul ch seq s
  | .conv ch seq => Sys2Proof.Machine.execConv ch seq s
  | .kernel ch seq => Sys2Proof.Machine.execKernel ch seq s
  | .transfer ch seq => Sys2Proof.Machine.execTransfer ch seq s
  | .reduce ch seq => Sys2Proof.Machine.execReduce ch seq s
  | .update ch seq => Sys2Proof.Machine.execUpdate ch seq s
  | .signal ch seq => Sys2Proof.Machine.execSignal ch seq s
  | .wait ch seq => Sys2Proof.Machine.execWait ch seq s
  | .epoch ch seq => Sys2Proof.Machine.execEpoch ch seq s
  | .snapshot ch seq => Sys2Proof.Machine.execSnapshot ch seq s
  | .seal ch seq => Sys2Proof.Machine.execSeal ch seq s
  | .flush ch seq => Sys2Proof.Machine.execFlush ch seq s
  | .epochDrainTimeout ch seq => Sys2Proof.Machine.execEpochDrainTimeout ch seq s
  | .checkMismatch ch seq fails => Sys2Proof.Machine.execCheckMismatch ch seq fails s
  | .blockDispatch ch seq => Sys2Proof.Machine.execBlockDispatch ch seq s
  | .memoryResultReturn loc thread => Sys2Proof.Machine.execMemoryResultReturn loc thread s
  | .sleepEnd loc thread => Sys2Proof.Machine.execSleepEnd loc thread s
  | .addW loc => Sys2Proof.Machine.execAddW loc s
  | .subW loc => Sys2Proof.Machine.execSubW loc s
  | .mulW loc => Sys2Proof.Machine.execMulW loc s
  | .mulhiW loc => Sys2Proof.Machine.execMulhiW loc s
  | .macW loc => Sys2Proof.Machine.execMacW loc s
  | .andB loc => Sys2Proof.Machine.execAndB loc s
  | .orB loc => Sys2Proof.Machine.execOrB loc s
  | .xorB loc => Sys2Proof.Machine.execXorB loc s
  | .shl loc => Sys2Proof.Machine.execShl loc s
  | .shr loc => Sys2Proof.Machine.execShr loc s
  | .shra loc => Sys2Proof.Machine.execShra loc s
  | .minW loc => Sys2Proof.Machine.execMinW loc s
  | .maxW loc => Sys2Proof.Machine.execMaxW loc s
  | .cmpW loc => Sys2Proof.Machine.execCmpW loc s
  | .pick loc => Sys2Proof.Machine.execPick loc s
  | .addsatW loc => Sys2Proof.Machine.execAddsatW loc s
  | .bitcnt loc => Sys2Proof.Machine.execBitcnt loc s
  | .lzcnt loc => Sys2Proof.Machine.execLzcnt loc s
  | .copy loc => Sys2Proof.Machine.execCopy loc s
  | .nop loc => Sys2Proof.Machine.execNop loc s
  | .addF loc => Sys2Proof.Machine.execAddF loc s
  | .subF loc => Sys2Proof.Machine.execSubF loc s
  | .mulF loc => Sys2Proof.Machine.execMulF loc s
  | .macF loc => Sys2Proof.Machine.execMacF loc s
  | .macF2 loc => Sys2Proof.Machine.execMacF2 loc s
  | .minF loc => Sys2Proof.Machine.execMinF loc s
  | .maxF loc => Sys2Proof.Machine.execMaxF loc s
  | .cmpF loc => Sys2Proof.Machine.execCmpF loc s
  | .addB2 loc => Sys2Proof.Machine.execAddB2 loc s
  | .mulB2 loc => Sys2Proof.Machine.execMulB2 loc s
  | .macB2 loc => Sys2Proof.Machine.execMacB2 loc s
  | .convInstruction loc => Sys2Proof.Machine.execConvInstruction loc s
  | .qblk loc => Sys2Proof.Machine.execQblk loc s
  | .dqblk loc => Sys2Proof.Machine.execDqblk loc s
  | .recip loc => Sys2Proof.Machine.execRecip loc s
  | .rsqrt loc => Sys2Proof.Machine.execRsqrt loc s
  | .sqrt loc => Sys2Proof.Machine.execSqrt loc s
  | .exp2 loc => Sys2Proof.Machine.execExp2 loc s
  | .log2 loc => Sys2Proof.Machine.execLog2 loc s
  | .getsr loc => Sys2Proof.Machine.execGetsr loc s
  | .ld loc => Sys2Proof.Machine.execLd loc s
  | .st loc => Sys2Proof.Machine.execSt loc s
  | .cpy loc => Sys2Proof.Machine.execCpy loc s
  | .atomIadd loc => Sys2Proof.Machine.execAtomIadd loc s
  | .atomImax loc => Sys2Proof.Machine.execAtomImax loc s
  | .atomUmax loc => Sys2Proof.Machine.execAtomUmax loc s
  | .atomFadd loc => Sys2Proof.Machine.execAtomFadd loc s
  | .atomCas loc => Sys2Proof.Machine.execAtomCas loc s
  | .atomCas64 loc => Sys2Proof.Machine.execAtomCas64 loc s
  | .redIadd loc => Sys2Proof.Machine.execRedIadd loc s
  | .redImax loc => Sys2Proof.Machine.execRedImax loc s
  | .redUmax loc => Sys2Proof.Machine.execRedUmax loc s
  | .redFadd loc => Sys2Proof.Machine.execRedFadd loc s
  | .redHadd loc => Sys2Proof.Machine.execRedHadd loc s
  | .fence loc => Sys2Proof.Machine.execFence loc s
  | .bar loc => Sys2Proof.Machine.execBar loc s
  | .spillw loc => Sys2Proof.Machine.execSpillw loc s
  | .fillw loc => Sys2Proof.Machine.execFillw loc s
  | .bra loc => Sys2Proof.Machine.execBra loc s
  | .brz loc => Sys2Proof.Machine.execBrz loc s
  | .brnz loc => Sys2Proof.Machine.execBrnz loc s
  | .call loc => Sys2Proof.Machine.execCall loc s
  | .callr loc => Sys2Proof.Machine.execCallr loc s
  | .ret loc => Sys2Proof.Machine.execRet loc s
  | .resume loc => Sys2Proof.Machine.execResume loc s
  | .exitT loc => Sys2Proof.Machine.execExitT loc s
  | .sleep loc => Sys2Proof.Machine.execSleep loc s
  | .cntadd loc => Sys2Proof.Machine.execCntadd loc s
  | .spark loc => Sys2Proof.Machine.execSpark loc s
  | .inv fn ch => Sys2Proof.Machine.execInv fn ch s
  | .invalidationComplete ch => Sys2Proof.Machine.execInvalidationComplete ch s
  | .bar2Read off len => Sys2Proof.Machine.execBar2Read off len s
  | .bar2Write off data => Sys2Proof.Machine.execBar2Write off data s
  | .mergeBufferTimeout unit => Sys2Proof.Machine.execMergeBufferTimeout unit s
  | .ackDeadline ch tag => Sys2Proof.Machine.execAckDeadline ch tag s
  | .counterWrite fn ch n v => Sys2Proof.Machine.execCounterWrite fn ch n v s
  | .counterAdd fn ch n v => Sys2Proof.Machine.execCounterAdd fn ch n v s
  | .waitTimeout ch seq => Sys2Proof.Machine.execWaitTimeout ch seq s
  | .kernelTimeout ch seq => Sys2Proof.Machine.execKernelTimeout ch seq s
  | .opsLbaseWrite fn ch list hi v => Sys2Proof.Machine.execOpsLbaseWrite fn ch list hi v s
  | .opsLsizeWrite fn ch list v => Sys2Proof.Machine.execOpsLsizeWrite fn ch list v s
  | .opsStrBaseWrite fn ch hi v => Sys2Proof.Machine.execOpsStrBaseWrite fn ch hi v s
  | .opsStrCountWrite fn ch v => Sys2Proof.Machine.execOpsStrCountWrite fn ch v s
  | .sourceBurstArrival ch stream n data => Sys2Proof.Machine.execSourceBurstArrival ch stream n data s
  | .streamStall ch stream => Sys2Proof.Machine.execStreamStall ch stream s
  | .stallTimeout ch stream => Sys2Proof.Machine.execStallTimeout ch stream s
  | .bankAgeForce ch list => Sys2Proof.Machine.execBankAgeForce ch list s
  | .pipBankCfgWrite fn ch v => Sys2Proof.Machine.execPipBankCfgWrite fn ch v s
  | .pipBankAgeWrite fn ch v => Sys2Proof.Machine.execPipBankAgeWrite fn ch v s
  | .pipStageWrite fn ch k v => Sys2Proof.Machine.execPipStageWrite fn ch k v s
  | .updateNormTimeout ch seq => Sys2Proof.Machine.execUpdateNormTimeout ch seq s
  | .ashTimeout ch seq => Sys2Proof.Machine.execAshTimeout ch seq s
  | .ashCfgWrite fn ch v => Sys2Proof.Machine.execAshCfgWrite fn ch v s
  | .ashRingWrite fn ch reg v => Sys2Proof.Machine.execAshRingWrite fn ch reg v s
  | .chmJobWrite fn ch v => Sys2Proof.Machine.execChmJobWrite fn ch v s
  | .dataFlit port flit errs => Sys2Proof.Machine.execDataFlit port flit errs s
  | .codewordErrorBurst port => Sys2Proof.Machine.execCodewordErrorBurst port s
  | .replayLimit port => Sys2Proof.Machine.execReplayLimit port s
  | .laneLockLoss port => Sys2Proof.Machine.execLaneLockLoss port s
  | .trainFlit port flit errs => Sys2Proof.Machine.execTrainFlit port flit errs s
  | .trainingComplete port peer => Sys2Proof.Machine.execTrainingComplete port peer s
  | .trainingFailed port => Sys2Proof.Machine.execTrainingFailed port s
  | .downRetry port => Sys2Proof.Machine.execDownRetry port s
  | .retrain port full => Sys2Proof.Machine.execRetrain port full s
  | .clr port => Sys2Proof.Machine.execClr port s
  | .timeFlitSend port => Sys2Proof.Machine.execTimeFlitSend port s
  | .pwrGrantWrite v => Sys2Proof.Machine.execPwrGrantWrite v s
  | .correctionReport scope => Sys2Proof.Machine.execCorrectionReport scope s
  | .swpStart fn scope => Sys2Proof.Machine.execSwpStart fn scope s
  | .swpAbort fn scope => Sys2Proof.Machine.execSwpAbort fn scope s
  | .sweepWordCheck scope => Sys2Proof.Machine.execSweepWordCheck scope s
  | .rawRead fn ch => Sys2Proof.Machine.execRawRead fn ch s
  | .rawWrite fn ch => Sys2Proof.Machine.execRawWrite fn ch s
  | .rawCommandComplete ch => Sys2Proof.Machine.execRawCommandComplete ch s
  | .cbistStart cluster tests update => Sys2Proof.Machine.execCbistStart cluster tests update s
  | .cbistComplete failmask first bonds => Sys2Proof.Machine.execCbistComplete failmask first bonds s
  | .pu2 margins => Sys2Proof.Machine.execPu2 margins s
  | .pu3 test => Sys2Proof.Machine.execPu3 test s
  | .powerTrip cause => Sys2Proof.Machine.execPowerTrip cause s
  | .currentWindow die samples => Sys2Proof.Machine.execCurrentWindow die samples s
  | .budgetPeriod shared power => Sys2Proof.Machine.execBudgetPeriod shared power s
  | .frequencyStep cluster => Sys2Proof.Machine.execFrequencyStep cluster s
  | .frequencyChangeComplete cluster => Sys2Proof.Machine.execFrequencyChangeComplete cluster s
  | .deferredChangeStart cluster => Sys2Proof.Machine.execDeferredChangeStart cluster s
  | .droopAssert cluster => Sys2Proof.Machine.execDroopAssert cluster s
  | .droopRelease cluster => Sys2Proof.Machine.execDroopRelease cluster s
  | .energyWindow input peak cluster => Sys2Proof.Machine.execEnergyWindow input peak cluster s
  | .hkConversion n v => Sys2Proof.Machine.execHkConversion n v s
  | .hkTrig v => Sys2Proof.Machine.execHkTrig v s
  | .vfFlr k => Sys2Proof.Machine.execVfFlr k s
  | .warmReset sess => Sys2Proof.Machine.execWarmReset sess s
  | .hostCompletion tag ok data => Sys2Proof.Machine.execHostCompletion tag ok data s
  | .dmaReadTimeout tag => Sys2Proof.Machine.execDmaReadTimeout tag s
  | .holdoffExpiry fn vector => Sys2Proof.Machine.execHoldoffExpiry fn vector s
  | .evrCfgWrite fn scope off v => Sys2Proof.Machine.execEvrCfgWrite fn scope off v s
  | .getInfo len => Sys2Proof.Machine.execGetInfo len s
  | .getFru len => Sys2Proof.Machine.execGetFru len s
  | .mbxGetMeasurements len => Sys2Proof.Machine.execMbxGetMeasurements len s
  | .readReg off => Sys2Proof.Machine.execReadReg off s
  | .setTlim sess v => Sys2Proof.Machine.execSetTlim sess v s
  | .clearTrip sess => Sys2Proof.Machine.execClearTrip sess s
  | .firmwareUpdate microcode version security verifies => Sys2Proof.Machine.execFirmwareUpdate microcode version security verifies s
  | .bypass die code => Sys2Proof.Machine.execBypass die code s
  | .idcode die => Sys2Proof.Machine.execIdcode die s
  | .samplePreload die => Sys2Proof.Machine.execSamplePreload die s
  | .extest die => Sys2Proof.Machine.execExtest die s
  | .idleFlit port flit errs => Sys2Proof.Machine.execIdleFlit port flit errs s
  | .pcieLinkUp speed width => Sys2Proof.Machine.execPcieLinkUp speed width s
  | .configurationRequest fn write reg v => Sys2Proof.Machine.execConfigurationRequest fn write reg v s
  | .timeInputLost => Sys2Proof.Machine.execTimeInputLost s
  | .reload => Sys2Proof.Machine.execReload s
  | .programComplete => Sys2Proof.Machine.execProgramComplete s
  | .flowstoneBusyEnd => Sys2Proof.Machine.execFlowstoneBusyEnd s
  | .getVersion => Sys2Proof.Machine.execGetVersion s
  | .getCapabilities => Sys2Proof.Machine.execGetCapabilities s
  | .read => Sys2Proof.Machine.execRead s
  | .store => Sys2Proof.Machine.execStore s
  | .atomic => Sys2Proof.Machine.execAtomic s
  | .signalPacket => Sys2Proof.Machine.execSignalPacket s
  | .reducePacket => Sys2Proof.Machine.execReducePacket s
  | .readData => Sys2Proof.Machine.execReadData s
  | .ack => Sys2Proof.Machine.execAck s
  | .slackSend => Sys2Proof.Machine.execSlackSend s
  | .slack => Sys2Proof.Machine.execSlack s
  | .grant => Sys2Proof.Machine.execGrant s
  | .coordinatorPeriod => Sys2Proof.Machine.execCoordinatorPeriod s
  | .grantApply => Sys2Proof.Machine.execGrantApply s
  | .sramCorrectionReport => Sys2Proof.Machine.execSramCorrectionReport s
  | .sramUncorrectable => Sys2Proof.Machine.execSramUncorrectable s
  | .cbistAbort => Sys2Proof.Machine.execCbistAbort s
  | .enRise => Sys2Proof.Machine.execEnRise s
  | .enFall => Sys2Proof.Machine.execEnFall s
  | .pldmOn => Sys2Proof.Machine.execPldmOn s
  | .pldmStandby => Sys2Proof.Machine.execPldmStandby s
  | .pldmOff => Sys2Proof.Machine.execPldmOff s
  | .pwrCmdStandby => Sys2Proof.Machine.execPwrCmdStandby s
  | .pwrCmdOff => Sys2Proof.Machine.execPwrCmdOff s
  | .inputLoss => Sys2Proof.Machine.execInputLoss s
  | .startUp => Sys2Proof.Machine.execStartUp s
  | .standbyReached => Sys2Proof.Machine.execStandbyReached s
  | .pu1 => Sys2Proof.Machine.execPu1 s
  | .pu4 => Sys2Proof.Machine.execPu4 s
  | .pu5 => Sys2Proof.Machine.execPu5 s
  | .pu6 => Sys2Proof.Machine.execPu6 s
  | .pd1 => Sys2Proof.Machine.execPd1 s
  | .pd2 => Sys2Proof.Machine.execPd2 s
  | .pd3 => Sys2Proof.Machine.execPd3 s
  | .pd4 => Sys2Proof.Machine.execPd4 s
  | .offReached => Sys2Proof.Machine.execOffReached s
  | .dwellEnd => Sys2Proof.Machine.execDwellEnd s
  | .rotLost => Sys2Proof.Machine.execRotLost s
  | .tripHoldoffEnd => Sys2Proof.Machine.execTripHoldoffEnd s
  | .hkRoundEnd => Sys2Proof.Machine.execHkRoundEnd s
  | .perstAssert => Sys2Proof.Machine.execPerstAssert s
  | .perstDeassert => Sys2Proof.Machine.execPerstDeassert s
  | .hotReset => Sys2Proof.Machine.execHotReset s
  | .pfFlr => Sys2Proof.Machine.execPfFlr s
  | .modRstWarm => Sys2Proof.Machine.execModRstWarm s
  | .warmResetComplete => Sys2Proof.Machine.execWarmResetComplete s
  | .mailboxComplete => Sys2Proof.Machine.execMailboxComplete s
  | .arm => Sys2Proof.Machine.execArm s
  | .lntCancel => Sys2Proof.Machine.execLntCancel s
  | .lanternLatch => Sys2Proof.Machine.execLanternLatch s

end Sys2Proof.Machine
end

