-- ==== Sys2Proof/Machine/Tick.lean ====
section
/-! DEFINITION. Tick.lean: the passage of one nanosecond, which a step on an empty queue is (log entry 62): the time
counter with its slewing (R27, R29) and the stall and fill times of the stages (R251), the passages between Ready and Active (R336), the time that
ports wait for credit (R395), and the latching of snapshots (R396). Everything else that is due at
a time is a command of its own. -/
namespace Sys2Proof.Machine
open Sys2Proof

/-- Whether the time counter runs: from start-up step 1 on (R27). -/
def clockOn (s : State) : Bool :=
  match s.power.phase with
  | .off => false
  | .offDwell => false
  | _ => true

/-- Ticks of the counter in this nanosecond (R29 step 2): one more, or none, in every 1,024 while it is slewed. -/
def ticksNow (s : State) : Nat :=
  if s.mtb.phase + 1 = 1024 then
    (match s.mtb.slew with
     | 1 => 2
     | 2 => 0
     | _ => 1)
  else 1

/-- Whether an operation is executing, or holds its engine as a link of an open chain. -/
def onEngine (o : Op) : Bool := o.state == .executing || o.state == .held

/-- Whether a WAIT of list `k` is EXECUTING with a later operation of the list held behind it; banked operations stand
outside list order (R246). -/
def waitBlocks (c : Chamber) (k : Nat) : Bool :=
  let l := (c.ops.filter (fun o => o.list == k)).dropWhile (fun o => !(opType o == 8 && o.state == .executing))
  l.any (fun o => !o.banked && (o.state == .fetched || o.state == .staged))

/-- Adds `d` ns to PIP_STALL_k and PIP_FILL_k of a chamber where R251 says so. -/
def stageTime (d k : Nat) (c : Chamber) : Chamber :=
  if !waitBlocks c k then c
  else
    let engine := c.ops.filter (fun o => o.list == k && isMatrix (opType o) && onEngine o)
    let c1 := if engine = [] then caddPair (0xC48 + 0x20 * k) d c else c
    if engine.any (·.banked) then caddPair (0xC50 + 0x20 * k) d c1 else c1

/-- The stall and fill times of a chamber. -/
def chamberTime (d n : Nat) (s : State) : State :=
  if isRunning s n then modCh n (fun c => (List.range c.alcoves).foldl (fun a k => stageTime d k a) c) s else s

/-- The power manager's record of Active reached, or of Ready reached from it (R336, R370; log entry 103). -/
def notePower (s : State) : State :=
  let a := anyExecuting s
  if s.power.phase = .ready ∧ a ≠ s.power.active then
    eventG 0x1001 [if a then 3 else 2] { s with power := { s.power with active := a } }
  else s

/-- The time that a link port has packets waiting and no credit for any of them (Table OBS-2, counter 8). -/
def creditTime (d p : Nat) (s : State) : State :=
  let q := portOf s p
  let waits := (List.range 4).filter (fun v => Tab.get [] v q.queues != [])
  if q.st == .active && waits != [] && waits.all (fun v => decide (credits q v = 0)) then bump (132 + p) 8 d s else s

/-- One nanosecond: what runs with module time, the new time, and the banks whose latching edge has come. -/
def tick (s : State) : State :=
  if !clockOn s then s
  else
    let d := ticksNow s
    let s1 := forAll (List.range 24) (creditTime d) (forAll allCh (chamberTime d) (notePower s))
    forAll allCh snapTick (lanternTick
      { s1 with time := s1.time + BitVec.ofNat 64 d,
                mtb := { s1.mtb with phase := if s1.mtb.slew = 0 then 0 else (s1.mtb.phase + 1) % 1024 } })

end Sys2Proof.Machine
end

