-- ==== Sys2Proof/WellFormed.lean ====
section
/-! DEFINITION. WellFormed.lean: the operands that a command can carry. The types bound most of them; what
remains are lengths and ranges that the manual gives: 256-byte flits (Table LNK-5), PCIe request and payload sizes
(R371), 192-byte approval records (Table STR-10), 94 ageing monitors (R353), 8 samples of a current window (R342), 64 clusters (R346, R360), 224
housekeeping channels (R361), and the rest as each check says. -/
namespace Sys2Proof

/-- A failed bond: bonds 0 to 15 carry data, and 16 is the spare of its group (R324). -/
def bondFailOk (b : BondFail) : Bool := decide (b.bond.toNat ≤ 16)

/-- An MSI-X vector of a function: 64 in the PF and 62 in each VF (R379). -/
def vectorOk (fn : Fn) (v : BitVec 11) : Bool := decide (v.toNat < if fn = 0 then 64 else 62)

/-- A configuration register: an MSI-X mask names one of the function's vectors. -/
def configRegOk (fn : Fn) (r : ConfigReg) : Bool :=
  match r with
  | .msixMask v => vectorOk fn v
  | .capability _ | .totalVfs | .initialVfs | .firstVfOffset | .vfStride | .maxPayloadSupported | .maxReadRequest
  | .vendorDevice | .classRevision | .serialLo | .serialHi | .vfEnable | .vfCount | .busMaster | .relaxedOrdering
  | .memoryDecode | .bar2Size | .msixFunctionMask | .powerState => true

/-- Whether the operands of a command are ones that an agent of the module can send or that can happen. -/
def wellFormed (i : Instr) : Bool :=
  match i with
  | .registerWrite _ _ data => decide (data ≠ [] ∧ data.length ≤ 512)
  | .counterLowRead _ _ len => decide (len ≠ 0 ∧ len.toNat ≤ 4096)
  | .timeFlit _ flit errs => decide (flit.length = 256 ∧ errs.length ≤ 2)
  | .apvSubmit _ _ rec => decide (rec.length = 192)
  | .checkMismatch _ _ faults => decide (faults ≠ [])
  | .bar2Read _ len => decide (len ≠ 0 ∧ len.toNat ≤ 4096)
  | .bar2Write _ data => decide (data ≠ [] ∧ data.length ≤ 512)
  | .sourceBurstArrival _ _ n data => decide (n ≠ 0 ∧ data.length ≤ n.toNat)
  | .dataFlit _ flit errs => decide (flit.length = 256 ∧ errs.length ≤ 2)
  | .trainFlit _ flit errs => decide (flit.length = 256 ∧ errs.length ≤ 2)
  | .trainingComplete _ peer => decide (peer.cal.length = 8)
  | .cbistComplete _ _ bonds => bonds.all bondFailOk
  | .pu2 margins => decide (margins.length = 94)
  | .pu3 test => test.bonds.all bondFailOk
  | .bypass _ code => decide (3 ≤ code.toNat)
  | .currentWindow _ samples => decide (samples.length = 8)
  | .budgetPeriod _ power => decide (power.length = 64)
  | .energyWindow _ _ cluster => decide (cluster.length = 64)
  | .hkConversion n _ => decide (n.toNat < 224)
  | .holdoffExpiry fn vector => vectorOk fn vector
  | .idleFlit _ flit errs => decide (flit.length = 256 ∧ errs.length ≤ 2)
  | .pcieLinkUp speed width => decide (1 ≤ speed.toNat ∧ speed.toNat ≤ 5) && decide (width ∈ [1#5, 2#5, 4#5, 8#5, 16#5])
  | .configurationRequest fn _ reg _ => configRegOk fn reg
  | .program _ | .clearingComplete _ | .enable _ _ | .halt _ _ | .reset _ _ | .ownerLock _ _ | .okeyWrite _ _ _ _
  | .rwaWrite _ _ _ | .propose _ _ | .submit _ _ | .cancel _ _ | .discard _ _ | .apvWrite _ _ _ _ | .apvPropose _ _
  | .apvCancel _ _ | .apvRead _ _ | .apvDeadline _ | .apvCommitComplete _ | .flowstoneWrite _ _
  | .rotationUnitRewrite _ | .debugRead _ | .debugReadComplete _ | .negotiateAlgorithms _ _ _ _ | .getDigests _
  | .getCertificate _ _ _ _ | .challenge _ _ | .getMeasurements _ _ | .keyExchange _ _ | .finish _ | .endSession _
  | .heartbeat _ | .keyUpdate _ _ | .doorbell _ _ _ _ | .registerWriteRelease _ | .descriptorFetch _ _
  | .operationStart _ _ _ | .operationRetire _ _ | .matmul _ _ | .conv _ _ | .kernel _ _ | .transfer _ _
  | .reduce _ _ | .update _ _ | .signal _ _ | .wait _ _ | .epoch _ _ | .snapshot _ _ | .seal _ _ | .flush _ _
  | .epochDrainTimeout _ _ | .blockDispatch _ _ | .memoryResultReturn _ _ | .sleepEnd _ _ | .addW _ | .subW _
  | .mulW _ | .mulhiW _ | .macW _ | .andB _ | .orB _ | .xorB _ | .shl _ | .shr _ | .shra _ | .minW _ | .maxW _
  | .cmpW _ | .pick _ | .addsatW _ | .bitcnt _ | .lzcnt _ | .copy _ | .nop _ | .addF _ | .subF _ | .mulF _
  | .macF _ | .macF2 _ | .minF _ | .maxF _ | .cmpF _ | .addB2 _ | .mulB2 _ | .macB2 _ | .convInstruction _
  | .qblk _ | .dqblk _ | .recip _ | .rsqrt _ | .sqrt _ | .exp2 _ | .log2 _ | .getsr _ | .ld _ | .st _ | .cpy _
  | .atomIadd _ | .atomImax _ | .atomUmax _ | .atomFadd _ | .atomCas _ | .atomCas64 _ | .redIadd _ | .redImax _
  | .redUmax _ | .redFadd _ | .redHadd _ | .fence _ | .bar _ | .spillw _ | .fillw _ | .bra _ | .brz _ | .brnz _
  | .call _ | .callr _ | .ret _ | .resume _ | .exitT _ | .sleep _ | .cntadd _ | .spark _ | .inv _ _
  | .invalidationComplete _ | .mergeBufferTimeout _ | .ackDeadline _ _ | .counterWrite _ _ _ _
  | .counterAdd _ _ _ _ | .waitTimeout _ _ | .kernelTimeout _ _ | .opsLbaseWrite _ _ _ _ _ | .opsLsizeWrite _ _ _ _
  | .opsStrBaseWrite _ _ _ _ | .opsStrCountWrite _ _ _ | .streamStall _ _ | .stallTimeout _ _ | .bankAgeForce _ _
  | .pipBankCfgWrite _ _ _ | .pipBankAgeWrite _ _ _ | .pipStageWrite _ _ _ _ | .updateNormTimeout _ _
  | .ashTimeout _ _ | .ashCfgWrite _ _ _ | .ashRingWrite _ _ _ _ | .chmJobWrite _ _ _ | .codewordErrorBurst _
  | .replayLimit _ | .laneLockLoss _ | .trainingFailed _ | .downRetry _ | .retrain _ _ | .clr _
  | .timeFlitSend _ | .pwrGrantWrite _ | .correctionReport _ | .swpStart _ _ | .swpAbort _ _ | .sweepWordCheck _
  | .rawRead _ _ | .rawWrite _ _ | .rawCommandComplete _ | .powerTrip _ | .frequencyStep _
  | .frequencyChangeComplete _ | .deferredChangeStart _ | .droopAssert _ | .droopRelease _ | .hkTrig _ | .vfFlr _
  | .warmReset _ | .hostCompletion _ _ _ | .dmaReadTimeout _ | .evrCfgWrite _ _ _ _ | .getInfo _ | .getFru _
  | .mbxGetMeasurements _ | .readReg _ | .setTlim _ _ | .clearTrip _ | .firmwareUpdate _ _ _ _
  | .idcode _ | .samplePreload _ | .extest _ | .timeInputLost | .reload | .programComplete | .flowstoneBusyEnd
  | .getVersion | .getCapabilities | .read | .store | .atomic | .signalPacket | .reducePacket | .readData | .ack
  | .slackSend | .slack | .grant | .coordinatorPeriod | .grantApply | .sramCorrectionReport | .sramUncorrectable
  | .cbistAbort | .enRise | .enFall | .pldmOn | .pldmStandby | .pldmOff | .pwrCmdStandby | .pwrCmdOff | .inputLoss
  | .startUp | .standbyReached | .pu1 | .pu4 | .pu5 | .pu6 | .pd1 | .pd2 | .pd3 | .pd4 | .offReached | .dwellEnd
  | .rotLost | .tripHoldoffEnd | .hkRoundEnd | .perstAssert | .perstDeassert | .hotReset | .pfFlr | .modRstWarm
  | .warmResetComplete | .mailboxComplete | .arm | .lntCancel | .lanternLatch | .cbistStart _ _ _ => true

end Sys2Proof
end

