-- ==== Sys2Proof/Safety.lean ====
section
/-! DEFINITION. Safety.lean: the terms in which the statements are said: a canonical memory, a command that
completes, what an issuing group needs, and what a host access needs. -/
namespace Sys2Proof.Safety
open Sys2Proof Sys2Proof.Machine

/-- The three memories that hold data keep their canonical form: addresses strictly rising, no byte listed
that equals what an unlisted address reads as. -/
def memOk (s : State) : Bool := Tab.wf 0 s.core && Tab.wf 0 s.gal && Tab.wf 0 s.bulk

/-- A step is safe when the module goes on. -/
def goesOn (o : Host.Outcome State Fault Refusal) : Prop := ∃ t, o = .next t

/-- The data memories of two states are the same: core stores, gallery and bulk memory. -/
def sameMemory (s t : State) : Prop := t.core = s.core ∧ t.gal = s.gal ∧ t.bulk = s.bulk

/-! ## Thread groups -/

/-- The group `g` at a place issues the instruction `w` on the threads of `path`: it is resident there, the
path is the one of R141, its program counter is a multiple of 8, the fetch gives `w` and leaves state `u`
with the group still resident, the OPC and the reserved fields of `w` are legal (R162, R163), and the path need not
wait for a tile or for its earlier accesses (R99, R153, R158). -/
def issues (s : State) (loc : Loc) (g : Group) (path : List Nat) (w : W64) (u : State) : Prop :=
  groupAt s loc.core.val loc.slot.val = some g ∧ groupAt u loc.core.val loc.slot.val = some g ∧
  choosePath g = some path ∧ (threadAt g (path.headD 0)).pc.toNat % 8 = 0 ∧
  fetchIns g.ch loc.core.val (threadAt g (path.headD 0)).pc s = (.ok (natLe 8 w.toNat), u) ∧
  opcLegal (iOpc w) = true ∧ fieldsOk w = true ∧ mustWait ⟨loc, g, path, w⟩ u = false

/-- The threads of a path may name the operand codes that an instruction reads and writes (R143), and no register that
it reads fails its parity (R314). -/
def codesLegal (u : State) (g : Group) (path : List Nat) (srcs dsts : List Nat) : Prop :=
  ∀ i ∈ path, srcs.all (codeOk (threadAt g i) false) = true ∧ dsts.all (codeOk (threadAt g i) true) = true ∧
    srcs.any (badCode (chOf u g.ch).winDepth (threadAt g i)) = false

/-- What thread `i` of an issuing group reads from operand codes, in order (R143). -/
def operands (u : State) (g : Group) (path codes : List Nat) (i : Nat) : List W32 :=
  (readCodes (specialOf u g path) i codes (threadAt g i)).1

/-- The register that a code names in thread `i` of a group, under the window depth of its chamber. -/
def register (s : State) (g : Group) (i c : Nat) : W32 :=
  Tab.get 0 (regIdx (chOf s g.ch).winDepth (threadAt g i) c) (threadAt g i).regs

/-- The threads outside a path keep everything but the slots they have waited. -/
def othersKept (g h : Group) (path : List Nat) : Prop :=
  h.threads.length = g.threads.length ∧ ∀ j, j ∉ path → { threadAt h j with age := 0 } = { threadAt g j with age := 0 }

/-- The groups of the places other than `loc` are the same in two states. -/
def otherGroups (u t : State) (loc : Loc) : Prop :=
  ∀ k, k ≠ 16 * loc.core.val + loc.slot.val → Tab.get none k t.groups = Tab.get none k u.groups

/-- The state in which an issuing instruction acts: the fetch is done, the issue counted, and the paths that waited
have waited one slot more (R141). -/
def issued (u : State) (loc : Loc) (g : Group) (path : List Nat) (w : W64) : State :=
  countIssue ⟨loc, g, path, w⟩ (modGroup loc (turnAges path) u)

/-- Bits of a destination register: those that the manual states, and their value. -/
structure Bits where
  mask : W32
  value : W32

/-- A register instruction as the manual gives it: the command, its OPC, the codes it reads and writes, the fields
it allows, and what the manual states of each destination for the special registers and the values read. -/
structure AluRow where
  cmd : Loc → Instr
  opc : Nat
  srcs : W64 → List Nat
  dsts : W64 → List Nat := fun w => [iD w]
  ok : W64 → Bool := fun _ => true
  res : Special → W64 → List W32 → List Bits

/-- All bits of a result are stated. -/
def whole (v : W32) : Bits := ⟨0xFFFFFFFF, v⟩

/-- No bit of a result is stated. -/
def unstated : Bits := ⟨0, 0⟩

/-- What a register instruction leaves of thread `i` of its path: the program counter past it, the destinations with
good parity, and everything else as before; a read of TIME_LO latches TIME_HI (Table THR-2). -/
def threadDone (r : AluRow) (u : State) (g h : Group) (path : List Nat) (w : W64) (i : Nat) : Prop :=
  let a := threadAt g i
  let b := threadAt h i
  let out := r.res (specialOf u g path) w (operands u g path (r.srcs w) i)
  b.pc = a.pc + 8 ∧
  (∀ e ∈ (r.dsts w).zip out, e.1 < 48 → register u h i e.1 &&& e.2.mask = e.2.value &&& e.2.mask) ∧
  (∀ k, (∀ c ∈ r.dsts w, c < 48 → k ≠ regIdx (chOf u g.ch).winDepth a c) → Tab.get 0 k b.regs = Tab.get 0 k a.regs) ∧
  (∀ k, Tab.get false k b.bad = (Tab.get false k a.bad &&
    !(r.dsts w).any (fun c => decide (c < 48) && k == regIdx (chOf u g.ch).winDepth a c))) ∧
  b.timeHi = (if 57 ∈ r.srcs w then hi32 u.time.toNat else a.timeHi) ∧
  { b with pc := a.pc, regs := a.regs, bad := a.bad, timeHi := a.timeHi, age := a.age } = a

/-- A register instruction does what its row says, for every issuing group whose threads may name its codes: the path's
threads have it done, every other thread, group and part of the module stays, but for counters and free values. -/
def Computes (r : AluRow) : Prop :=
  ∀ (s : State) (loc : Loc) (g : Group) (path : List Nat) (w : W64) (u : State),
    issues s loc g path w u → iOpc w % 0x80 = r.opc → r.ok w = true → codesLegal u g path (r.srcs w) (r.dsts w) →
    ∃ t h, exec (r.cmd loc) s = .next t ∧ groupAt t loc.core.val loc.slot.val = some h ∧
      (∀ i ∈ path, threadDone r u g h path w i) ∧ othersKept g h path ∧ { h with threads := g.threads } = g ∧
      otherGroups u t loc ∧ { t with groups := u.groups, banks := u.banks, free := u.free } = u

/-- An instruction leaves each thread `i` of its path as `f` gives it, every other thread, group and part of the module
as it was, but for bank counters. -/
def Becomes (u : State) (loc : Loc) (g : Group) (path : List Nat) (o : Host.Outcome State Fault Refusal)
    (f : Nat → Thread → Thread) : Prop :=
  ∃ t h, o = .next t ∧ groupAt t loc.core.val loc.slot.val = some h ∧
    (∀ i ∈ path, { threadAt h i with age := 0 } = { f i (threadAt g i) with age := 0 }) ∧ othersKept g h path ∧
    { h with threads := g.threads } = g ∧ otherGroups u t loc ∧ { t with groups := u.groups, banks := u.banks } = u

/-! ### The table of register instructions (Table THR-8, R83, R159 to R163) -/

/-- Value `k` of those read. -/
def valAt (vs : List W32) (k : Nat) : W32 := vs.getD k 0

/-- An instruction of A and of B, or of A and IMM in the I form. -/
def rowAB (cmd : Loc → Instr) (opc : Nat) (f : W64 → W32 → W32 → Bits) (ok : W64 → Bool := fun _ => true) : AluRow :=
  { cmd := cmd, opc := opc, ok := ok, srcs := fun w => if isI w then [iA w] else [iA w, iB w],
    res := fun _ w vs => [f w (valAt vs 0) (if isI w then iImm w else valAt vs 1)] }

/-- An instruction of A, B and C. -/
def rowABC (cmd : Loc → Instr) (opc : Nat) (f : W32 → W32 → W32 → Bits) : AluRow :=
  { cmd := cmd, opc := opc, srcs := fun w => [iA w, iB w, iC w],
    res := fun _ _ vs => [f (valAt vs 0) (valAt vs 1) (valAt vs 2)] }

/-- An instruction of A. -/
def rowA (cmd : Loc → Instr) (opc : Nat) (f : W32 → Bits) : AluRow :=
  { cmd := cmd, opc := opc, srcs := fun w => [iA w], res := fun _ _ vs => [f (valAt vs 0)] }

/-- An operand as the number that TYPE names: 0 S32, 1 U32. -/
def number (w : W64) (v : W32) : Int := if iTy w = 0 then v.toInt else (v.toNat : Int)

/-- TYPE is S32 or U32. -/
def wordType (w : W64) : Bool := decide (iTy w ≤ 1)

/-- The conditions of a compare (R162). -/
def holds (k : Nat) (a b : Int) : Bool :=
  match k with
  | 0 => decide (a = b)
  | 1 => decide (a ≠ b)
  | 2 => decide (a < b)
  | 3 => decide (a ≤ b)
  | 4 => decide (b < a)
  | _ => decide (b ≤ a)

/-- A flag as a register. -/
def flag (b : Bool) : Bits := whole (if b then 1 else 0)

/-- A shift by less than 32; the manual states no result for a longer one (log entry 37). -/
def shiftResult (f : W32 → Nat → W32) (a b : W32) : Bits := if b.toNat < 32 then whole (f a b.toNat) else unstated

/-- The integer instructions and NOP (R163). -/
def integerRows : List AluRow := [
  rowAB .addW 0x01 (fun _ a b => whole (a + b)),
  rowAB .subW 0x02 (fun _ a b => whole (a - b)),
  rowAB .mulW 0x03 (fun _ a b => whole (a * b)),
  rowAB .mulhiW 0x04 (fun w a b => whole (BitVec.ofInt 32 (number w a * number w b / 2 ^ 32))) wordType,
  rowABC .macW 0x05 (fun a b c => whole (a * b + c)),
  rowAB .andB 0x06 (fun _ a b => whole (a &&& b)),
  rowAB .orB 0x07 (fun _ a b => whole (a ||| b)),
  rowAB .xorB 0x08 (fun _ a b => whole (a ^^^ b)),
  rowAB .shl 0x09 (fun _ a b => shiftResult (fun x n => x <<< n) a b),
  rowAB .shr 0x0A (fun _ a b => shiftResult (fun x n => x >>> n) a b),
  rowAB .shra 0x0B (fun _ a b => shiftResult (fun x n => x.sshiftRight n) a b),
  rowAB .minW 0x0C (fun w a b => whole (BitVec.ofInt 32 (min (number w a) (number w b)))) wordType,
  rowAB .maxW 0x0D (fun w a b => whole (BitVec.ofInt 32 (max (number w a) (number w b)))) wordType,
  rowAB .cmpW 0x0E (fun w a b => flag (holds (iMod w % 8) (number w a) (number w b)))
    (fun w => wordType w && decide (iMod w % 8 ≤ 5)),
  { cmd := .pick, opc := 0x0F, srcs := fun w => if isI w then [iA w] else [iA w, iB w, iC w],
    res := fun _ w vs =>
      [if isI w then unstated else whole (if (valAt vs 2).getLsbD 0 then valAt vs 1 else valAt vs 0)] },
  rowAB .addsatW 0x10 (fun w a b => whole (if iTy w = 0
    then BitVec.ofInt 32 (max (-2147483648) (min 2147483647 (a.toInt + b.toInt)))
    else BitVec.ofNat 32 (min 0xFFFFFFFF (a.toNat + b.toNat)))) wordType,
  rowA .bitcnt 0x11 (fun a => whole (BitVec.ofNat 32 ((List.range 32).countP (fun i => a.getLsbD i)))),
  rowA .lzcnt 0x12 (fun a => whole (BitVec.ofNat 32 ((List.range 32).countP (fun i => decide (a.toNat < 2 ^ i))))),
  { cmd := .copy, opc := 0x13, srcs := fun w => [iA w],
    res := fun _ w vs => [if isI w then unstated else whole (valAt vs 0)] },
  { cmd := .nop, opc := 0x1F, srcs := fun _ => [], dsts := fun _ => [], res := fun _ _ _ => [] }]

/-- MIN.F and MAX.F: a NaN operand gives the NaN of R72; of two zeros of opposite signs a zero whose sign is not stated
(log entry 13). -/
def minMaxResult (lt : Bool) (a b : W32) : Bits :=
  match cmpX (x32 a) (x32 b) with
  | none => whole 0x7FC00000
  | some c => if c = 0 ∧ a ≠ b then ⟨0x7FFFFFFF, 0⟩ else whole (if decide (c < 0) = lt then a else b)

/-- CMP.F (R162): a NaN gives 0, but 1 under NE. -/
def cmpFResult (w : W64) (a b : W32) : Bits :=
  match cmpX (x32 a) (x32 b) with
  | none => flag (iMod w % 8 == 1)
  | some c => flag (holds (iMod w % 8) c 0)

/-- An instruction on the two BF16 halves of its operands, each rounded once (R83). -/
def onHalves (f : XV → XV → XV → XV) (a b c : W32) : Bits :=
  whole (halves (fun k => rb (f (xb (half a k)) (xb (half b k)) (xb (half c k)))))

/-- The FP32 and BF16 instructions (R83, R140, R162). -/
def floatRows : List AluRow := [
  rowAB .addF 0x20 (fun _ a b => whole (r32 (addX (x32 a) (x32 b)))),
  rowAB .subF 0x21 (fun _ a b => whole (r32 (addX (x32 a) (negX (x32 b))))),
  rowAB .mulF 0x22 (fun _ a b => whole (r32 (mulX (x32 a) (x32 b)))),
  rowABC .macF 0x23 (fun a b c => whole (r32 (addX (mulX (x32 a) (x32 b)) (x32 c)))),
  { cmd := .macF2, opc := 0x24, ok := fun w => decide (iA w % 2 = 0 ∧ iB w % 2 = 0 ∧ iC w % 2 = 0),
    srcs := fun w => [iA w, iB w, iC w, nextCode (iA w), nextCode (iB w), nextCode (iC w)],
    dsts := fun w => [iD w, nextCode (iD w)],
    res := fun _ _ vs =>
      [whole (r32 (addX (mulX (x32 (valAt vs 0)) (x32 (valAt vs 1))) (x32 (valAt vs 2)))),
       whole (r32 (addX (mulX (x32 (valAt vs 3)) (x32 (valAt vs 4))) (x32 (valAt vs 5))))] },
  rowAB .minF 0x25 (fun _ a b => minMaxResult true a b),
  rowAB .maxF 0x26 (fun _ a b => minMaxResult false a b),
  rowAB .cmpF 0x27 cmpFResult (fun w => decide (iMod w % 8 ≤ 5)),
  rowAB .addB2 0x28 (fun _ a b => onHalves (fun x y _ => addX x y) a b 0),
  rowAB .mulB2 0x29 (fun _ a b => onHalves (fun x y _ => mulX x y) a b 0),
  rowABC .macB2 0x2A (onHalves (fun x y z => addX (mulX x y) z))]

/-- The rounding that MOD[7] of a conversion selects (R81, R160). -/
def convRnd (w : W64) (c : W32) : Rnd := if 128 ≤ iMod w then .sr (c.toNat % 65536) else .rne

/-- CONV by source and target TYPE (R160, Table NUM-7); the upper half of a BF16 result is not stated (log entry 40). -/
def convResult (w : W64) (a b c : W32) : Bits :=
  match iMod w % 16, iTy w with
  | 2, 2 => whole a
  | 2, 3 => ⟨0xFFFF, BitVec.ofNat 32 (convScalar false 7 0 (convRnd w c) a).1⟩
  | 2, 0 => whole (BitVec.ofInt 32 (toIntSat (-2147483648) 2147483647 (convRnd w c) (x32 a)).1)
  | 2, _ => whole (BitVec.ofInt 32 (toIntSat (-128) 127 (convRnd w c) (x32 a)).1)
  | 0, 0 => whole a
  | 0, 2 => whole (BitVec.ofNat 32 (encodeF f32 .rne (.fin (decide (a.toInt < 0)) a.toInt.natAbs 0)))
  | 0, _ => whole (BitVec.ofInt 32 (max (-128) (min 127
      (sgn (decide (a.toInt < 0)) (roundMag a.toInt.natAbs (-((b.toNat % 32 : Nat) : Int)) 0 (convRnd w c))))))
  | _, _ => whole (r32 (xb (BitVec.ofNat 16 (a.toNat % 65536))))

/-- Conversions of one thread, special functions, GETSR and SPARK (R159 to R161, R163). -/
def otherRows : List AluRow := [
  { cmd := .convInstruction, opc := 0x30,
    ok := fun w => [(2, 0), (2, 2), (2, 3), (2, 8), (0, 0), (0, 2), (0, 8), (3, 2)].contains (iMod w % 16, iTy w),
    srcs := fun w => [iA w, if iMod w % 16 = 0 ∧ iTy w = 8 then iB w else 0, if 128 ≤ iMod w then iC w else 0],
    res := fun _ w vs => [convResult w (valAt vs 0) (valAt vs 1) (valAt vs 2)] },
  rowAB .dqblk 0x32 (fun w a b => match eltOf (iTy w - 3) with
      | some f => whole (r32 (decodeElt f (a.toNat % 2 ^ f.bits) (b.toNat % 256)))
      | none => unstated) (fun w => decide (4 ≤ iTy w ∧ iTy w ≤ 7)),
  rowA .recip 0x38 (fun a => whole (r32 (recipX (x32 a)))),
  rowA .rsqrt 0x39 (fun a => whole (r32 (rsqrtX (x32 a)))),
  rowA .sqrt 0x3A (fun a => whole (r32 (sqrtX (x32 a)))),
  rowA .exp2 0x3B (fun a => whole (r32 (exp2X (x32 a)))),
  rowA .log2 0x3C (fun a => whole (r32 (log2X (x32 a)))),
  { rowA .getsr 0x3F whole with ok := fun w => decide (48 ≤ iA w ∧ iA w ≤ 60) },
  { cmd := .spark, opc := 0x61, ok := fun w => decide (8 ≤ iD w ∧ iD w < 40 ∧ iD w % 4 = 0),
    srcs := fun w => [iB w, iA w, nextCode (iA w)], dsts := fun w => [iD w, iD w + 1, iD w + 2, iD w + 3],
    res := fun x _ vs =>
      let q := spark4 (BitVec.ofNat 64 x.seed) (lo32 x.stream) (lo32 ((valAt vs 0).toNat % 2 ^ 31))
        (BitVec.ofNat 64 ((valAt vs 1).toNat + 2 ^ 32 * (valAt vs 2).toNat))
      [whole q.1, whole q.2.1, whole q.2.2.1, whole q.2.2.2] }]

/-! ## Host accesses -/

/-- A register write of a function takes effect at once: the function exists and is served (R391), no earlier write
waits (R217), and no module-fatal fault freezes the registers (R333). -/
def served (s : State) (fn : Fn) : Prop := fnUp s fn = true ∧ mustHold s fn = false ∧ hostFrozen s = false

/-- A register write of a function to the block of chamber `n` takes effect at once: it comes from the PF or from the
VF of the chamber, which the image defines (R13). -/
def reaches (s : State) (fn : Fn) (n : Fin 32) : Prop :=
  served s fn ∧ (fn = 0 ∨ fnCh s fn = some n.val) ∧ defined s n.val = true

/-- The state in which a served write of a chamber register has been counted (Table OBS-2). -/
def counted (s : State) (n : Fin 32) (off : Nat) : State := countAccess s (.chm n.val off)

/-- The same for a register of the global block. -/
def countedG (s : State) (off : Nat) : State := countAccess s (.global off)

end Sys2Proof.Safety
end

