-- ==== Sys2Proof/Certificates/Slice0/Obligations.lean ====
section
/-! DEFINITION. Obligations.lean: what is claimed of the module, rule by rule of the manual. -/

open Sys2Proof Sys2Proof.Machine Sys2Proof.Safety

/-! ## The queue of commands -/

/-- A step takes the command at the front of the queue and runs it with the queue's rest. -/
def Obligations.StepRunsTheFrontCommand : Prop := ∀ (c : Instr) (l : List Instr) (s : State), step { s with pending := c :: l } = exec c { s with pending := l }

/-- With no command waiting, a step is one nanosecond of the module (the model's choice, log entry 62): while the
time counter runs and is not slewed it advances by 1, no memory changes, and without a running counter nothing
changes. -/
def Obligations.IdleStepIsOneNanosecond : Prop :=
  ∀ s : State, s.pending = [] → ∃ t, step s = .next t ∧ t.pending = [] ∧ sameMemory s t ∧
    (clockOn s = true → s.mtb.slew = 0 → t.time = s.time + 1) ∧ (clockOn s = false → t = s)

/-- Every command whose operands are well formed answers a next state, in every state; the only command that stops
is a flit of another length than the 256 bytes of a flit, and nothing is refused. (The stop on such a flit, no flit
at all by R285, is the model's: log entry 1.) -/
def Obligations.WellFormedCommandsComplete : Prop :=
  (∀ (c : Instr) (s : State), wellFormed c = true → ∃ t, exec c s = .next t) ∧
  (∀ (c : Instr) (s : State), (∃ t, exec c s = .next t) ∨
     (exec c s = .fault .badLength ∧ ∃ (p : Fin 24) (f : Bytes) (e : List CwErr), f.length ≠ 256 ∧
       (c = .dataFlit p f e ∨ c = .idleFlit p f e ∨ c = .timeFlit p f e ∨ c = .trainFlit p f e)))

/-- No command touches the commands that wait behind it. -/
def Obligations.CommandsLeaveTheQueue : Prop := ∀ (c : Instr) (s t : State), exec c s = .next t → t.pending = s.pending

/-- While the time counter runs, no command but a time flit changes it (R27: a warm reset neither stops nor reloads
it). -/
def Obligations.OnlyTimeFlitsSetTheClock : Prop :=
  ∀ (c : Instr) (s t : State), (∀ p f e, c ≠ .timeFlit p f e) → clockOn s = true → exec c s = .next t → clockOn t = true →
    t.time = s.time

/-! ## Memory and reset -/

/-- At reset the three data memories are canonical. -/
def Obligations.MemoryIsCanonicalAtReset : Prop := memOk State.reset = true

/-- A step keeps the three data memories canonical: addresses strictly rising, and no byte listed that equals what
an unlisted one reads as. -/
def Obligations.StepsKeepMemoryCanonical : Prop := ∀ s t : State, memOk s = true → step s = .next t → memOk t = true

/-- The module before start-up: power phase Off, time 0, every chamber UNDEFINED, every port DISABLED, no thread
group resident and no command waiting; the registers whose tables give a reset value other than 0 hold it, and the
other registers of the global block hold 0. -/
def Obligations.ResetIsPowerOff : Prop :=
  State.reset.power.phase = .off ∧ State.reset.time = 0 ∧ State.reset.pending = [] ∧
  (∀ n, (chOf State.reset n).st = .undefined) ∧ (∀ p, (portOf State.reset p).st = .disabled) ∧
  (∀ core slot, groupAt State.reset core slot = none) ∧
  gget 0x108 State.reset = 0xFF00 ∧ gget 0xC00 State.reset = 3 ∧ gget 0x2104 State.reset = 8 ∧
  gget 0x3008 State.reset = 0x057804B0 ∧ gget 0x300C State.reset = 0x4B0 ∧ gget 0x301C State.reset = 0x01F40A01 ∧
  gget 0x3020 State.reset = 0x2840 ∧ gget 0x3024 State.reset = 0x02BC02BC ∧ gget 0x3030 State.reset = 0x00036E64 ∧
  gget 0x4000 State.reset = 0x01110009 ∧ gget 0x4020 State.reset = 0x32 ∧ gget 0x4104 State.reset = 6 ∧
  gget 0x5020 State.reset = 0x800 ∧
  (∀ off, off ∉ coldRegs.map (·.1) → gget off State.reset = 0)

/-- A write of core-store bytes reads back, and every other byte of every core store stays (R167). Whole code words
stored in a chamber's gallery window are what a load of the same bytes gives (R173, R185): the store and the load
succeed where the range lies in the window. -/
def Obligations.MemoriesKeepWhatIsWritten : Prop :=
  (∀ (core off : Nat) (bs : Bytes) (s : State),
     coreRead core off bs.length (coreWrite core off bs s) = bs ∧
     coreBadIn core off bs.length (coreWrite core off bs s) = false ∧
     (∀ k, (k < coreKey core off ∨ coreKey core off + bs.length ≤ k) →
       Tab.get 0 k (coreWrite core off bs s).core = Tab.get 0 k s.core) ∧
     (coreWrite core off bs s).gal = s.gal ∧ (coreWrite core off bs s).bulk = s.bulk) ∧
  (∀ (n w : Nat) (a b : Agent) (bs : Bytes) (s : State), w % 32 = 0 → bs.length % 32 = 0 → bs ≠ [] →
     w + bs.length ≤ winSize s (chOf s n) →
     ∃ t u, galStore n a w bs s = (.ok (), t) ∧ galLoad n b w bs.length t = (.ok bs, u) ∧
       (∀ k core off, winLoc s (chOf s n) k = some (core, off) → (k < w ∨ w + bs.length ≤ k) →
         Tab.get 0 (galKey core off) t.gal = Tab.get 0 (galKey core off) s.gal) ∧
       t.core = s.core ∧ t.bulk = s.bulk)

/-! ## Register access -/

/-- R6: a read of the low word of a counter pair answers the live low word and latches the live high word for that
function; the next read of the high word answers the latched copy and uses it up, and a read of the high word
without a copy answers the live high word. The holding copies of other functions stay. R32: each chamber block
mirrors MTB_CNT_LO and MTB_CNT_HI at 0x3_FF00 and 0x3_FF04, with the same pairing rule. -/
def Obligations.CounterPairsReadTogether : Prop :=
  (∀ (s : State) (fn : Fn) (off : BitVec 26), fnUp s fn = true → off.toNat % 4 = 0 → off.toNat + 4 ≤ barSize fn →
    noBlock s (placeOf s fn off.toNat) = false → isPairLow (placeOf s fn off.toNat) = true →
    ∃ t, exec (.counterLowRead fn off 4) s = .next t ∧
      t.out = .cpl fn (natLe 4 (liveWord s (placeOf s fn off.toNat)).toNat) false :: s.out ∧
      Tab.get none (holdKey fn off.toNat) t.hold = some (liveWord s (above (placeOf s fn off.toNat))) ∧
      (∀ fn' : Fn, fn' ≠ fn → ∀ k, k < 2 ^ 26 → Tab.get none (holdKey fn' k) t.hold = Tab.get none (holdKey fn' k) s.hold)) ∧
  (∀ (s : State) (fn : Fn) (off : BitVec 26), fnUp s fn = true → off.toNat % 4 = 0 → 4 ≤ off.toNat →
    off.toNat + 4 ≤ barSize fn → noBlock s (placeOf s fn off.toNat) = false →
    isPairLow (placeOf s fn off.toNat) = false →
    isPairLow (below (placeOf s fn off.toNat)) = true →
    ∃ t, exec (.counterLowRead fn off 4) s = .next t ∧
      t.out = .cpl fn (natLe 4 ((Tab.get none (holdKey fn (off.toNat - 4)) s.hold).getD
        (liveWord s (placeOf s fn off.toNat))).toNat) false :: s.out ∧
      Tab.get none (holdKey fn (off.toNat - 4)) t.hold = none ∧
      (∀ fn' : Fn, fn' ≠ fn → ∀ k, k < 2 ^ 26 → Tab.get none (holdKey fn' k) t.hold = Tab.get none (holdKey fn' k) s.hold)) ∧
  (∀ (s : State) (n : Nat), defined s n = true → liveWord s (.chm n 0x3FF00) = liveWord s (.global 0x100) ∧
    liveWord s (.chm n 0x3FF04) = liveWord s (.global 0x104) ∧ isPairLow (.chm n 0x3FF00) = true ∧
    isPairLow (.global 0x100) = true)

/-- R407: a write that enables all four bytes of a register word of a served function writes the word, whichever
command carries it; one that leaves a byte of an existing register word out leaves the word unchanged and raises
0x1105 with the word's offset, on the ring of the chamber whose block holds it or on the global ring. -/
def Obligations.RegisterWordsAreWrittenWhole : Prop :=
  (∀ (s : State) (fn : Fn) (off : BitVec 26) (v : W32), served s fn → off.toNat % 4 = 0 → off.toNat + 4 ≤ barSize fn →
    (fn = 0 → isBuffer off.toNat = false) →
    exec (.registerWrite fn off (allBytes v)) s = .next (writeAt fn off.toNat v s) ∧
    exec (.rwaWrite fn off v) s = .next (writeAt fn off.toNat v s)) ∧
  (∀ (s : State) (fn : Fn) (off : BitVec 26) (b0 b1 b2 b3 : Option W8), served s fn → off.toNat % 4 = 0 →
    off.toNat + 4 ≤ barSize fn → (fn = 0 → isBuffer off.toNat = false) → wordExists s (placeOf s fn off.toNat) = true →
    [b0, b1, b2, b3].any (·.isSome) = true → [b0, b1, b2, b3].any (·.isNone) = true →
    exec (.registerWrite fn off [b0, b1, b2, b3]) s = .next (match placeOf s fn off.toNat with
      | .chm n _ => event n 0x1105 0 [off.toNat] s
      | _ => eventG 0x1105 [off.toNat] s))

/-- R12: a reserved range. A read of a word that is no register returns 0 and completes normally, and a write of
such a word, of all of its bytes or of some, is discarded; so it is with every word of the block of a chamber that
the image does not define. A VF reaches no block but that of its own chamber. -/
def Obligations.ReservedRangesReadZeroAndDiscard : Prop :=
  (∀ (s : State) (fn : Fn) (off : BitVec 26), fnUp s fn = true → off.toNat % 4 = 0 → off.toNat + 4 ≤ barSize fn →
    (fn = 0 → isBuffer off.toNat = false) → wordExists s (placeOf s fn off.toNat) = false →
    (∃ t, exec (.counterLowRead fn off 4) s = .next t ∧ t.out = .cpl fn [0, 0, 0, 0] false :: s.out ∧
      { t with banks := s.banks, out := s.out } = s) ∧
    (served s fn → ∀ data : List (Option W8), data.length = 4 →
      ∃ t, exec (.registerWrite fn off data) s = .next t ∧ { t with banks := s.banks } = s)) ∧
  (∀ (s : State) (n j : Nat), defined s n = false → wordExists s (.chm n j) = false) ∧
  (∀ (s : State) (fn : Fn) (off : Nat) (n j : Nat), fn ≠ 0 → placeOf s fn off = .chm n j → fnCh s fn = some n)

/-! ## Chambers -/

/-- R409, R49: ENABLE = 1 takes an IDLE chamber to RUNNING, and its operations are looked at; it is ignored in every
other state, and where STR_POLICY asks for an owner credential that is not set. HALT acts in IDLE and RUNNING: the
retirements under way complete (Table OPS-8), event 0x0206 goes to the chamber's ring, and the chamber is HALTED; its
HALT_CODE is 0x0206 where no retirement was under way (or 0x1103 where that event's record is a host request that
cannot be issued, R375); in every other state HALT is ignored. -/
def Obligations.EnableAndHaltMoveTheChamber : Prop :=
  (∀ (s : State) (fn : Fn) (n : Fin 32), reaches s fn n →
     ((chOf s n).st = .idle → (bit (flowAt s 1) 12 = false ∨ (chOf s n).ownerSet = true) →
       exec (.enable fn n) s = .next (settleAll n (setCh n { chOf s n with st := .running } (counted s n 0)))) ∧
     (((chOf s n).st ≠ .idle ∨ (bit (flowAt s 1) 12 = true ∧ (chOf s n).ownerSet = false)) →
       exec (.enable fn n) s = .next (counted s n 0))) ∧
  (∀ (s : State) (fn : Fn) (n : Fin 32), reaches s fn n →
     (((chOf s n).st = .idle ∨ (chOf s n).st = .running) →
       ∃ t, exec (.halt fn n) s = .next t ∧ t = haltCh n 0x206 (event n 0x206 0 [] (retireDone n (counted s n 0))) ∧
         (chOf t n).st = .halted ∧
         ((∀ o ∈ (chOf s n).ops, o.state ≠ .retiring) →
           creg t n 4 = 0x02060000#32 ∨ (ringStuck (counted s n 0) (some n.val) = true ∧ creg t n 4 = 0x11030000#32))) ∧
     ((chOf s n).st ≠ .idle → (chOf s n).st ≠ .running → exec (.halt fn n) s = .next (counted s n 0)))

/-- R409, Table STR-7: RESET acts in IDLE, RUNNING and HALTED. It takes the chamber to CLEARING: every core store of
its clusters holds 0 with good parity, the valid bits of its gallery words are clear, no operation, counter, stream,
echo line, contribution that waits for a way or ash record is left, and an invalidation to the base in MEM_PTBASE runs
(R181); the keys, the owner credential, the page-table base and
CHM_JOB stay (R49). In every other state it is ignored. -/
def Obligations.ResetClearsTheChamber : Prop :=
  ∀ (s : State) (fn : Fn) (n : Fin 32), reaches s fn n →
    (((chOf s n).st = .idle ∨ (chOf s n).st = .running ∨ (chOf s n).st = .halted) →
      ∃ t, exec (.reset fn n) s = .next t ∧ (chOf t n).st = .clearing ∧ (chOf t n).invBusy = true ∧
        (chOf t n).ops = [] ∧ (chOf t n).counters = [] ∧ (chOf t n).streams = [] ∧ (chOf t n).lines = [] ∧ (chOf t n).waitAlloc = [] ∧
        (chOf t n).ash = [] ∧ (chOf t n).ptNext = cpair 0x708 (chOf s n) ∧
        (chOf t n).reqs = [] ∧ (chOf t n).lists = [] ∧ (chOf t n).key = (chOf s n).key ∧
        (chOf t n).ownerSet = (chOf s n).ownerSet ∧ creg t n 0x10 = creg s n 0x10 ∧
        (∀ core off, ownsCore (chOf s n) core = true → off < 0x40000 →
          Tab.get 0 (coreKey core off) t.core = 0 ∧ Tab.get false (coreKey core off) t.coreBad = false) ∧
        (∀ core off, ownsCore (chOf s n) core = true → off < 0x1000000 →
          Tab.get false (galKey core off / 32) t.galValid = false)) ∧
    (((chOf s n).st = .clearing ∨ (chOf s n).st = .rotating) → exec (.reset fn n) s = .next (counted s n 0))

/-- Table STR-7, R409: the end of CLEARING raises 0x0203; the chamber is IDLE, or HALTED with the code of a
module-wide halt that met it in CLEARING; the page-table base of an invalidation under way comes into force (R181).
R181: MEM_CTL.INV = 1 starts an invalidation, and its end puts in force the page-table base that MEM_PTBASE held when it
was asked for, and drops every cached entry; nothing else of the module changes. -/
def Obligations.ClearingAndInvalidationEnd : Prop :=
  (∀ (s : State) (n : Fin 32), (chOf s n).st = .clearing → (chOf s n).invBusy = true →
     ((chOf s n).haltPend = none →
       exec (.clearingComplete n) s = .next (event n 0x203 0 []
         (setCh n { chOf s n with st := .idle, invBusy := false, ptbase := (chOf s n).ptNext, tlb := [] } s))) ∧
     (∀ code, (chOf s n).haltPend = some code →
       exec (.clearingComplete n) s = .next (event n 0x203 0 []
         (setCh n (cset 4 (BitVec.ofNat 32 (code.toNat * 65536))
           { chOf s n with st := .halted, haltPend := none, invBusy := false, ptbase := (chOf s n).ptNext, tlb := [] }) s)))) ∧
  ((∀ (s : State) (fn : Fn) (n : Fin 32), reaches s fn n →
     exec (.inv fn n) s = .next (setCh n { chOf s n with
       invBusy := true, ptNext := cpair 0x708 (chOf s n) } (counted s n 0x700))) ∧
   (∀ (s : State) (n : Fin 32), (chOf s n).invBusy = true →
     exec (.invalidationComplete n) s =
       .next (setCh n { chOf s n with invBusy := false, ptbase := (chOf s n).ptNext, tlb := [] } s)) ∧
   (∀ (s : State) (n : Fin 32), (chOf s n).invBusy = false → exec (.invalidationComplete n) s = .next s))

/-- R53: the owner credential. While OWNER_SET = 0 and the chamber is IDLE, a write of CHM_OKEY takes effect at once
and OWNER_LOCK sets OWNER_SET; while the chamber is not IDLE both are ignored, and OWNER_LOCK with OWNER_SET = 1 in
every state. While OWNER_SET = 0 an APV_WRITE naming CHM_OKEY completes with code 2; from OWNER_SET = 1 on a write
of CHM_OKEY enters the change buffer. -/
def Obligations.OwnerCredentialIsInstalledOnce : Prop :=
  ∀ (s : State) (fn : Fn) (n : Fin 32) (i : Fin 24) (v : W32), reaches s fn n →
    ((chOf s n).st = .idle → (chOf s n).ownerSet = false →
      exec (.okeyWrite fn n i v) s = .next (setCreg n (0x40 + 4 * i.val) v (counted s n (0x40 + 4 * i.val))) ∧
      exec (.ownerLock fn n) s = .next (setCh n { chOf s n with ownerSet := true } (counted s n 0))) ∧
    ((chOf s n).st ≠ .idle → (chOf s n).ownerSet = false →
      exec (.okeyWrite fn n i v) s = .next (counted s n (0x40 + 4 * i.val)) ∧
      exec (.ownerLock fn n) s = .next (counted s n 0)) ∧
    ((chOf s n).ownerSet = true → exec (.ownerLock fn n) s = .next (counted s n 0)) ∧
    (∀ sess b, (chOf s n).ownerSet = false → answersAll s = true → secured s sess = true → scopeOf s b = some (.chamber n) →
      exec (.apvWrite sess b (BitVec.ofNat 32 (0x40 + 4 * i.val)) v) s = .next (vendorSay 0x10 2 [] s)) ∧
    ((chOf s n).ownerSet = true → apvClosed (chOf s n).apv = false →
      apvFull (chOf s n).apv (BitVec.ofNat 32 (0x40 + 4 * i.val)) = false →
      exec (.okeyWrite fn n i v) s = .next (putApv (.chamber n) { (chOf s n).apv with
        state := .collecting, buf := bufPut (BitVec.ofNat 32 (0x40 + 4 * i.val)) v (chOf s n).apv.buf }
          (counted s n (0x40 + 4 * i.val))))

/-! ## Dual approval (R51 to R56) -/

/-- R52: what the owner's four commands through APV_CMD do: PROPOSE of an acceptable buffer opens a proposal (state
PROPOSED, the next APV_ID, a drawn nonce, the deadline 60 s from now, H, event 0x0301); SUBMIT hands in the record
that stands in APV_REC, which closes the proposal with MISMATCH where its signature does not verify; CANCEL closes
an open proposal with CANCELLED; DISCARD empties a collecting buffer; outside the states where they apply they leave
the scope as it is but for IGNORED. -/
def Obligations.OwnerApprovalCommands : Prop :=
  ∀ (s : State) (fn : Fn) (n : Fin 32), reaches s fn n →
    let a := (chOf s n).apv
    let c := counted s n 0x100
    (apvClosed a = false → proposeRefusal c (.chamber n) = 0 →
      exec (.propose fn (.chamber n)) s = .next (openProposal (.chamber n) c)) ∧
    (a.state = .proposed → recordForm (.chamber n) 1 (apvRec a) = true → a.ownerIn = false → now s < a.deadline.toNat →
      recordMatches a (apvRec a) = true → a.needOwner = true → a.operatorIn = false →
      exec (.submit fn (.chamber n)) s = .next (if ownerSigned c (.chamber n) (apvRec a) = true
        then putApv (.chamber n) { a with ownerIn := true } c else closeApv (.chamber n) 3 c)) ∧
    (a.state = .proposed →
      exec (.cancel fn (.chamber n)) s = .next (event n 0x305 0 [] (putApv (.chamber n)
        { a with state := .empty, buf := [], overflow := false, result := 4 } c))) ∧
    (a.state = .collecting →
      exec (.discard fn (.chamber n)) s = .next (putApv (.chamber n)
        { a with state := .empty, buf := [], overflow := false } c)) ∧
    (apvClosed a = true → exec (.propose fn (.chamber n)) s = .next (putApv (.chamber n) { a with ignored := true } c)) ∧
    (a.state ≠ .proposed →
      exec (.submit fn (.chamber n)) s = .next (putApv (.chamber n) { a with ignored := true } c) ∧
      exec (.cancel fn (.chamber n)) s = .next (putApv (.chamber n) { a with ignored := true } c)) ∧
    (a.state ≠ .collecting →
      exec (.discard fn (.chamber n)) s = .next (putApv (.chamber n) { a with ignored := true } c))

/-- R52 step 2: an accepted PROPOSE. The approval block of a scope then shows PROPOSED, no record in, APV_ID one
more than the last (1 after 0xFFFF_FFFF), a nonce drawn from the root of trust, a deadline 60,000,000,000 ns after
the module time, and H over scope, APV_ID, nonce and change list. R52 step 4 and R55: an open proposal closes with
EXPIRED (event 0x0303) at its deadline and not before; a commit whose flowstone writes have ended puts every entry
of the change list in force and closes with COMMITTED (event 0x0302), here for a chamber's list that neither rotates
the keys nor replaces the owner credential. -/
def Obligations.ProposalsOpenExpireAndCommit : Prop :=
  (∀ (s : State) (sc : Scope), ∃ t, openProposal sc s = eventScope sc 0x301 [] t ∧
     apvOf t sc = { apvOf s sc with
       state := .proposed, ownerIn := false, operatorIn := false,
       id := if (apvOf s sc).id = 0xFFFFFFFF then 1 else (apvOf s sc).id + 1,
       nonce := (Config.drbg s.draws).truncate 128,
       hash := apvHash sc (if (apvOf s sc).id = 0xFFFFFFFF then 1 else (apvOf s sc).id + 1)
         ((Config.drbg s.draws).truncate 128) (apvOf s sc).buf,
       deadline := BitVec.ofNat 64 (s.time.toNat + 60000000000), needOwner := hasOwner s sc } ∧
     t.draws = s.draws + 1 ∧ sameMemory s t) ∧
  ((∀ (s : State) (sc : Scope), (apvOf s sc).state = .proposed → (apvOf s sc).deadline.toNat ≤ s.time.toNat →
     exec (.apvDeadline sc) s = .next (eventScope sc 0x303 [] (putApv sc
       { apvOf s sc with state := .empty, buf := [], overflow := false, result := 2 } s))) ∧
   (∀ (s : State) (sc : Scope), s.time.toNat < (apvOf s sc).deadline.toNat → exec (.apvDeadline sc) s = .next s) ∧
   (∀ (s : State) (n : Fin 32) (v : W32), (chOf s n).apv.state = .committing → (chOf s n).apv.buf = [(0x14, v)] →
     bit v 3 = false →
     exec (.apvCommitComplete (.chamber n)) s = .next (event n 0x302 0 []
       { putApv (.chamber n) { (chOf s n).apv with state := .empty, buf := [], overflow := false, result := 1 }
           (setCreg n 0x14 ((creg s n 0x14 &&& ~~~0x7#32) ||| (v &&& 0x7#32)) s) with commit := none })))

/-- R52, R383: the operator's commands in an established session, on a scope that exists: APV_WRITE enters the
buffer with code 0, APV_PROPOSE opens an acceptable proposal with code 0, the first APV_SUBMIT of a matching record
sets OPERATOR_IN with code 0 while the owner's is awaited, APV_CANCEL closes an open proposal with code 0, and
APV_READ answers the scope's approval block; a secured command outside every session answers code 1. -/
def Obligations.OperatorApprovalCommands : Prop :=
  ∀ (s : State) (sess : Sess) (b : W8) (sc : Scope), answersAll s = true → scopeOf s b = some sc →
    let a := apvOf s sc
    (secured s sess = true →
      (∀ off v m, bufMask s sc off.toNat = some m → apvClosed a = false → apvFull a off = false →
        exec (.apvWrite sess b off v) s = .next (vendorSay 0x10 0 []
          (putApv sc { a with state := .collecting, buf := bufPut off (v &&& m) a.buf } s))) ∧
      (apvClosed a = false → proposeRefusal s sc = 0 →
        exec (.apvPropose sess b) s = .next (vendorSay 0x11 0 [] (openProposal sc s))) ∧
      (∀ rec, rec.length = 192 → a.state = .proposed → now s < a.deadline.toNat → recordForm sc 2 rec = true →
        a.operatorIn = false → recordMatches a rec = true → a.needOwner = true → a.ownerIn = false →
        exec (.apvSubmit sess b rec) s = .next (vendorSay 0x12 0 [] (putApv sc { a with operatorIn := true } s))) ∧
      (a.state = .proposed → exec (.apvCancel sess b) s = .next (vendorSay 0x13 0 [] (closeApv sc 4 s)))) ∧
    (exec (.apvRead sess b) s = .next (vendorSay 0x14 0 (apvBytes s sc) s)) ∧
    (secured s sess = false →
      (∀ off v, exec (.apvWrite sess b off v) s = .next (vendorSay 0x10 1 [] s)) ∧
      exec (.apvPropose sess b) s = .next (vendorSay 0x11 1 [] s) ∧
      (∀ rec, exec (.apvSubmit sess b rec) s = .next (vendorSay 0x12 1 [] s)) ∧
      exec (.apvCancel sess b) s = .next (vendorSay 0x13 1 [] s))

/-! ## Flowstone, rotation and the debug path -/

/-- R57: an accepted flowstone write (BUSY = 0, word not WORN) reads back at once, raises the word's wear by 1, sets
BUSY and LAST_INDEX, and changes no other word; one while BUSY = 1 or to a WORN word changes no word and no wear,
sets REFUSED and raises 0x0307. The end of BUSY clears it. -/
def Obligations.FlowstoneWritesFollowBusyAndWear : Prop :=
  (∀ (s : State) (i : BitVec 14) (v : W32), s.flowBusy = false → worn s i.toNat = false →
    ∃ t, exec (.flowstoneWrite i v) s = .next t ∧ flowAt t i.toNat = v ∧
      Tab.get 0 i.toNat t.wear = Tab.get 0 i.toNat s.wear + 1 ∧ t.flowBusy = true ∧ worn t i.toNat = decide (99999 = Tab.get 0 i.toNat s.wear) ∧
      (∀ j, j ≠ i.toNat → flowAt t j = flowAt s j ∧ Tab.get 0 j t.wear = Tab.get 0 j s.wear) ∧ sameMemory s t) ∧
  (∀ (s : State) (i : BitVec 14) (v : W32), (s.flowBusy = true ∨ worn s i.toNat = true) →
    exec (.flowstoneWrite i v) s = .next (eventG 0x307 [] (gsetBit 0x600 1 s))) ∧
  (∀ s : State, s.flowBusy = true → s.flowQueue = [] → exec .flowstoneBusyEnd s = .next { s with flowBusy := false })

/-- R183, R59: a rotation rewrites the unit at MEM_ROT_PTR: read with the old keys, written with the new ones, and
the pointer moves past it to the next unit of the chamber's ranges; every other unit of bulk memory stays, and while
units are left the chamber stays ROTATING. Shown for a unit without a stored error, and no BAR2 access waiting. -/
def Obligations.RotationRewritesOneUnit : Prop :=
  ∀ (s : State) (n : Fin 32) (p : Nat), (chOf s n).st = .rotating → nextUnit (chOf s n) (chOf s n).rotPtr = some p →
    p % 64 = 0 → Tab.get 0 (p / 64) s.bulkErr = 0 → (∃ q, nextUnit (chOf s n) (p + 64) = some q ∧ (nextUnit (chOf s n) q).isSome = true) → s.merge = [] → s.bar2Wait = [] →
    ∃ t, exec (.rotationUnitRewrite n) s = .next t ∧ (chOf t n).st = .rotating ∧
      (chOf t n).rotPtr = (nextUnit (chOf s n) (p + 64)).getD bulkSize ∧
      bulkUnit t (chOf s n).key p = bulkUnit s (chOf s n).oldKey p ∧
      (∀ k q, q / 64 ≠ p / 64 → bulkByte t k q = bulkByte s k q) ∧ t.core = s.core ∧ t.gal = s.gal

/-- R62: a debug read of the PF. Where R62 allows it, the 32 bytes stand in DBG_DATA, BUSY is set with ZERO and ERR
of the word, and the end of the read clears BUSY and sets DONE; where it refuses, REFUSED is set and 0x0205 names
the target. The core stores stay as they are. -/
def Obligations.DebugReadsShowTheTarget : Prop :=
  (∀ (s : State) (die : Fin 2) (core off : Nat), served s 0 → dbgPlace (countedG s (0x400000 + 0x400000 * die.val)) die.val = some (core, off, false) →
    ∃ t, exec (.debugRead die) s = .next t ∧ bit (dbgGet t die.val 4) 0 = true ∧
      (∀ i, i < 8 → dbgGet t die.val (0x20 + 4 * i) = wordAt (coreRead core off 32 s) (4 * i)) ∧
      bit (dbgGet t die.val 4) 4 = coreBadIn core off 32 s ∧ bit (dbgGet t die.val 4) 3 = false ∧ sameMemory s t) ∧
  (∀ (s : State) (die : Fin 2), served s 0 → dbgPlace (countedG s (0x400000 + 0x400000 * die.val)) die.val = none →
    exec (.debugRead die) s = .next (let c := countedG s (0x400000 + 0x400000 * die.val)
      eventG 0x205 [(dbgGet s die.val 8).toNat, (dbgGet s die.val 0xC).toNat]
        (dbgSet die.val 4 (setBit (dbgGet s die.val 4) 2 true) c))) ∧
  (∀ (s : State) (die : Fin 2), bit (dbgGet s die.val 4) 0 = true →
    ∃ t, exec (.debugReadComplete die) s = .next t ∧ bit (dbgGet t die.val 4) 0 = false ∧ bit (dbgGet t die.val 4) 1 = true ∧
      { t with dbg := s.dbg } = s)

/-! ## Management -/

/-- R63: the SPDM messages of the negotiation and of the identity, in the order of the protocol: each is answered
with its own response, and the ones that set something set it. KEY_EXCHANGE on slot 0 opens a session, FINISH with
its id establishes it, and from then on HEARTBEAT and KEY_UPDATE are answered and END_SESSION ends it; each for an
id that is not established is an error. -/
def Obligations.SpdmIdentifiesAndOpensSessions : Prop :=
  (∀ s : State, answers s = true →
     (∃ t, exec .getVersion s = .next t ∧ t.spdm.version = true ∧ t.spdm.algs = false ∧ t.spdm.sessions = [] ∧
       t.out = .spdm 0x04 (Config.spdmBody 0x04 s.spdm.count) :: s.out) ∧
     (s.spdm.version = true → ∃ t, exec .getCapabilities s = .next t ∧ t.spdm.caps = true ∧
       t.out = .spdm 0x61 (Config.spdmBody 0x61 s.spdm.count) :: s.out) ∧
     (s.spdm.caps = true → ∃ t, exec (.negotiateAlgorithms 0x80 2 0x10 2) s = .next t ∧ t.spdm.algs = true ∧
       ∃ body, t.out = .spdm 0x63 body :: s.out) ∧
     (s.spdm.algs = true →
       exec (.getDigests none) s = .next (spdmSay 0x01 [] s) ∧
       (∀ off len, exec (.getCertificate none 0 off len) s = .next (spdmSay 0x02 [] s)) ∧
       exec (.challenge none 0) s = .next (spdmSay 0x03 [] s) ∧
       (∀ off len (slot : W8), slot ≠ 0 → exec (.getCertificate none slot off len) s = .next (spdmError s))) ∧
     (s.spdm.algs = false → ∀ sess, exec (.getDigests sess) s = .next (spdmError s) ∧
       exec (.challenge sess 0) s = .next (spdmError s))) ∧
  ((∀ (s : State) (req : W16), answersAll s = true → s.spdm.algs = true →
     ∃ t id, exec (.keyExchange 0 req) s = .next t ∧ t.spdm.opening = id :: s.spdm.opening ∧ (id.truncate 16 : W16) = req ∧
       t.draws = s.draws + 1) ∧
   (∀ (s : State) (id : W32), answers s = true → s.spdm.opening.any (sameHalf id) = true →
     ∃ t, exec (.finish id) s = .next t ∧ t.spdm.sessions = id :: s.spdm.sessions) ∧
   (∀ (s : State) (id : W32), answers s = true → s.spdm.sessions.contains id = true →
     exec (.heartbeat id) s = .next (spdmSay 0x68 [] s) ∧
     (∀ op : W8, 1 ≤ op.toNat → op.toNat ≤ 3 → exec (.keyUpdate id op) s = .next (spdmSay 0x69 [] s)) ∧
     ∃ t, exec (.endSession id) s = .next t ∧ t.spdm.sessions.contains id = false) ∧
   (∀ (s : State) (id : W32), answers s = true → s.spdm.sessions.contains id = false →
     exec (.heartbeat id) s = .next (spdmError s) ∧ exec (.endSession id) s = .next (spdmError s)))

/-- R64, Table STR-16: GET_MEASUREMENTS answers the block that its index names: 48 bytes, the seven blocks in index
order for 0xFF, and their number for 0. Block 5 is the SHA-384 digest of STR_POLICY and STR_PKEY, and block 6 that
of STR_DEBUG and every chamber's CHM_PROT. R381: a write of MBX_CMD while no command runs starts it (BUSY), and one
while a command runs is ignored with event 0x1101; the completion puts the response in the response buffer, its
RESULT and length in MBX_STAT with DONE, and signals vector 1. -/
def Obligations.MeasurementsAndMailboxAnswer : Prop :=
  ((∀ (s : State) (i : W8), answersAll s = true → s.spdm.algs = true → 1 ≤ i.toNat → i.toNat ≤ 7 →
     ∃ t, exec (.getMeasurements none i) s = .next t ∧
       t.out = .spdm 0x60 (slice (measurement s i.toNat) 0 48 ++ Config.spdmBody 0x60 s.spdm.count) :: s.out) ∧
   (∀ s : State, answersAll s = true → s.spdm.algs = true →
     (∃ t, exec (.getMeasurements none 0) s = .next t ∧ t.out = .spdm 0x60 (7 :: Config.spdmBody 0x60 s.spdm.count) :: s.out) ∧
     (∃ t, exec (.getMeasurements none 0xFF) s = .next t ∧
       t.out = .spdm 0x60 (allMeasurements s ++ Config.spdmBody 0x60 s.spdm.count) :: s.out)) ∧
   (∀ s : State, measurement s 5 = sha384 (natLe 4 (flowAt s 1).toNat ++ pkeyBytes s) ∧
     measurement s 6 = sha384 (natLe 4 (gget 0x218 s).toNat ++ allCh.flatMap (fun n => natLe 4 (chmLive s n 0x14).toNat)) ∧
     (allMeasurements s).length = 336)) ∧
  ((∀ (s : State) (len : W16), served s 0 → s.mbxCmd = none →
     exec (.getInfo len) s = .next { countedG s 0x2000000 with mbxCmd := some (word (1 + 65536 * len.toNat)) } ∧
     exec (.getFru len) s = .next { countedG s 0x2000000 with mbxCmd := some (word (2 + 65536 * len.toNat)) } ∧
     exec (.mbxGetMeasurements len) s = .next { countedG s 0x2000000 with mbxCmd := some (word (3 + 65536 * len.toNat)) }) ∧
   (∀ (s : State) (len : W16), served s 0 → s.mbxCmd.isSome = true →
     exec (.getInfo len) s = .next (eventG 0x1101 [] (countedG s 0x2000000))) ∧
   (∀ s : State, s.mbxCmd = some 1 →
     exec .mailboxComplete s = .next (sendVec 0 1 (gset 0x2000004 (word (2 + 65536 * 24))
       { s with mbxCmd := none, mbxResp := memWrite s.mbxResp 0 (infoBytes s) }))) ∧
   (∀ s : State, s.mbxCmd = some 3 →
     exec .mailboxComplete s = .next (sendVec 0 1 (gset 0x2000004 (word (2 + 65536 * 336))
       { s with mbxCmd := none, mbxResp := memWrite s.mbxResp 0 (allMeasurements s) }))) ∧
   (∀ (s : State) (v : W32), s.mbxCmd = some v → (fld v 7 0 = 0 ∨ 3 < fld v 7 0) →
     exec .mailboxComplete s = .next (sendVec 0 1 (gset 0x2000004 (word (2 + 256))
       { s with mbxCmd := none }))) ∧
   (∀ s : State, s.mbxCmd = none → exec .mailboxComplete s = .next s))

/-- R383: READ_REG answers the register, code 2 for an offset that is not a register word of the global block;
SET_TLIM, CLEAR_TRIP and WARM_RESET act in an established session and answer code 1 outside every session, changing
nothing else. R384, R385: the test access port loads its instruction (BYPASS
for any code of no other instruction, unless JTAG_UNLOCK is set), IDCODE and SAMPLE answer a data register, and
EXTEST acts as BYPASS in Ready and Active; a firmware update writes the copy that is not in use, and new microcode
that verifies waits for the next cold start. -/
def Obligations.ManagementCommandsAnswer : Prop :=
  (∀ (s : State) (sess : Sess), answersAll s = true →
     (∀ off : W32, off.toNat % 4 = 0 → off.toNat < 0x400000 →
       exec (.readReg off) s = .next (emit (.mctp 1 0 (natLe 4 (globalLive s off.toNat).toNat)) s)) ∧
     (∀ off : W32, (off.toNat % 4 ≠ 0 ∨ 0x400000 ≤ off.toNat) → exec (.readReg off) s = .next (emit (.mctp 1 2 []) s)) ∧
     (secured s sess = true →
       (∀ v, s.flowBusy = false → worn s 384 = false → ∃ t, exec (.setTlim sess v) s = .next t ∧ flowAt t 384 = v ∧
         t.out.head? = some (.mctp 0x20 0 [])) ∧
       exec (.clearTrip sess) s = .next (emit (.mctp 0x21 0 []) { s with power := { s.power with trip := false, lastTrip := 0 } }) ∧
       (isReady s = true → exec (.warmReset sess) s = .next (startWarm 5 (emit (.mctp 0x22 0 []) s))) ∧
       (isReady s = false → exec (.warmReset sess) s = .next (emit (.mctp 0x22 4 []) s))) ∧
     (secured s sess = false →
       (∀ v, exec (.setTlim sess v) s = .next (emit (.mctp 0x20 1 []) s)) ∧
       exec (.clearTrip sess) s = .next (emit (.mctp 0x21 1 []) s) ∧
       exec (.warmReset sess) s = .next (emit (.mctp 0x22 1 []) s))) ∧
  ((∀ (s : State) (die : Fin 2),
     (∀ code : W8, bit (gget 0x218 s) 0 = false →
       exec (.bypass die code) s = .next { s with jtag := Tab.set 1 die.val 0xFF s.jtag }) ∧
     (∀ code : W8, bit (gget 0x218 s) 0 = true →
       exec (.bypass die code) s = .next { s with jtag := Tab.set 1 die.val code s.jtag }) ∧
     (∃ t v, exec (.idcode die) s = .next t ∧ Tab.get 1 die.val t.jtag = 1 ∧ t.out = .tap die.val v :: s.out ∧
       v.toNat % 2 ^ 28 = 0x0901C2B) ∧
     (∃ t v, exec (.samplePreload die) s = .next t ∧ Tab.get 1 die.val t.jtag = 2 ∧ t.out = .tap die.val v :: s.out) ∧
     (isReady s = true → exec (.extest die) s = .next { s with jtag := Tab.set 1 die.val 0xFF s.jtag }) ∧
     (isReady s = false → exec (.extest die) s = .next { s with jtag := Tab.set 1 die.val 0 s.jtag })) ∧
   (∀ (s : State) (v : W16) (sec : W8) (ok : Bool), answers s = true →
     (s.firmware.booted = 1 → exec (.firmwareUpdate false v sec ok) s = .next { s with firmware :=
       { s.firmware with verB := v, secB := sec.toNat, okB := ok, newest := 2 } }) ∧
     (s.firmware.booted = 2 → exec (.firmwareUpdate false v sec ok) s = .next { s with firmware :=
       { s.firmware with verA := v, secA := sec.toNat, okA := ok, newest := 1 } })) ∧
   (∀ (s : State) (v : W16) (sec : W8), answers s = true →
     exec (.firmwareUpdate true v sec true) s = .next { s with firmware := { s.firmware with ucodeNext := v } } ∧
     exec (.firmwareUpdate true v sec false) s = .next s))

/-! ## Registers of a chamber that commands write -/

/-- R216, Table OPS-8: a doorbell on an enabled list of a chamber that is not CLEARING moves OPS_TAIL to TAIL, bits
[19:0] of the value (the reserved bits are ignored, R8), where that is an entry of the list and does not lie behind the
tail; otherwise it is ignored with event 0x0B08. A list the chamber does not have ignores it in silence. Nothing but
the tail changes. -/
def Obligations.DoorbellsMoveTheTail : Prop :=
  ∀ (s : State) (fn : Fn) (n : Fin 32) (k : Fin 8) (v : W32), reaches s fn n →
    let l := Tab.get {} k.val (chOf s n).lists
    let size := listSize (chOf s n) k
    let t := v.toNat % 2 ^ 20
    let c := counted s n (0xA0C + 0x20 * k.val)
    let ahead := (l.tail + size - l.head) % size ≤ (t + size - l.head) % size
    (k.val < (chOf s n).alcoves → (chOf s n).st ≠ .clearing → t < size → ahead →
      exec (.doorbell fn n k v) s = .next (setCh n { chOf s n with
        lists := Tab.set {} k.val { l with tail := t } (chOf s n).lists } c)) ∧
    (k.val < (chOf s n).alcoves → ((chOf s n).st = .clearing ∨ size ≤ t ∨ ¬ ahead) →
      exec (.doorbell fn n k v) s = .next (event n 0xB08 0 [] c)) ∧
    ((chOf s n).alcoves ≤ k.val → exec (.doorbell fn n k v) s = .next c)

/-- R215, R235, R258, R279: the configuration registers of lists, stream table, bank queue, stages and ash stream
take their writable bits while the chamber is IDLE (the log sizes in their ranges, the stream table within the
gallery window, the two counter ranges of the bank queue within 4,096), and nothing else of the module changes.
Outside IDLE the same writes are ignored: no register of theirs changes, and the event of their chapter (0x0B08,
0x0C04, 0x0D08) is raised on the chamber's ring. -/
def Obligations.ConfigurationIsWrittenOnlyInIdle : Prop :=
  (∀ (s : State) (fn : Fn) (n : Fin 32) (k : Fin 8) (v : W32), reaches s fn n → (chOf s n).st = .idle → k.val < (chOf s n).alcoves →
     let c := fun off => counted s n off
     exec (.opsLbaseWrite fn n k false v) s = .next (setCreg n (0xA00 + 0x20 * k.val) (v &&& 0xFFFFF000#32) (c (0xA00 + 0x20 * k.val))) ∧
     exec (.opsLbaseWrite fn n k true v) s = .next (setCreg n (0xA04 + 0x20 * k.val) (v &&& 0xFFFF#32) (c (0xA04 + 0x20 * k.val))) ∧
     ((fld v 4 0 = 0 ∨ (6 ≤ fld v 4 0 ∧ fld v 4 0 ≤ 20)) →
       exec (.opsLsizeWrite fn n k v) s = .next (setCreg n (0xA08 + 0x20 * k.val) (BitVec.ofNat 32 (fld v 4 0)) (c (0xA08 + 0x20 * k.val)))) ∧
     ((v &&& 0xFFFF0000#32).toNat + 2 ^ 32 * (creg s n 0x914).toNat + 64 * fld (creg s n 0x918) 18 0 ≤ winSize s (chOf s n) →
       exec (.opsStrBaseWrite fn n false v) s = .next (setCreg n 0x910 (v &&& 0xFFFF0000#32) (c 0x910))) ∧
     ((creg s n 0x910).toNat + 2 ^ 32 * (v &&& 3#32).toNat + 64 * fld (creg s n 0x918) 18 0 ≤ winSize s (chOf s n) →
       exec (.opsStrBaseWrite fn n true v) s = .next (setCreg n 0x914 (v &&& 3#32) (c 0x914))) ∧
     ((fld v 18 0 = 0 ∨ 2 ^ Nat.log2 (fld v 18 0) = fld v 18 0) → otherStreams s n + fld v 18 0 ≤ 262144 →
       cpair 0x910 (chOf s n) + 64 * fld v 18 0 ≤ winSize s (chOf s n) →
       exec (.opsStrCountWrite fn n v) s = .next (setCreg n 0x918 (BitVec.ofNat 32 (fld v 18 0)) (c 0x918))) ∧
     (fld v 11 0 + fld v 24 12 ≤ 4096 →
       exec (.pipBankCfgWrite fn n v) s = .next (setCreg n 0xC00 (v &&& 0x1FFFFFF#32) (c 0xC00))) ∧
     exec (.pipBankAgeWrite fn n v) s = .next (setCreg n 0xC04 (v &&& 0xFFFF#32) (c 0xC04)) ∧
     exec (.pipStageWrite fn n k v) s = .next (setCreg n (0xC40 + 0x20 * k.val) (v &&& 0x0FFF1FFF#32) (c (0xC40 + 0x20 * k.val))) ∧
     (fld v 2 1 ≠ 3 → exec (.ashCfgWrite fn n v) s = .next (setCreg n 0xE40 (v &&& 0x000FFF07#32) (c 0xE40))) ∧
     exec (.ashRingWrite fn n 0 v) s = .next (setCreg n 0xE44 (v &&& 0xFFFF0000#32) (c 0xE44)) ∧
     exec (.ashRingWrite fn n 1 v) s = .next (setCreg n 0xE48 v (c 0xE48)) ∧
     (6 ≤ fld v 4 0 → fld v 4 0 ≤ 30 → exec (.ashRingWrite fn n 2 v) s = .next (setCreg n 0xE4C (v &&& 0x1F#32) (c 0xE4C)))) ∧
  (∀ (s : State) (fn : Fn) (n : Fin 32) (k : Fin 8) (v : W32), reaches s fn n → (chOf s n).st ≠ .idle → k.val < (chOf s n).alcoves →
     let c := fun off => counted s n off
     exec (.opsLbaseWrite fn n k false v) s = .next (event n 0xB08 0 [] (c (0xA00 + 0x20 * k.val))) ∧
     exec (.opsLsizeWrite fn n k v) s = .next (event n 0xB08 0 [] (c (0xA08 + 0x20 * k.val))) ∧
     exec (.opsStrBaseWrite fn n false v) s = .next (event n 0xB08 0 [] (c 0x910)) ∧
     exec (.opsStrCountWrite fn n v) s = .next (event n 0xB08 0 [] (c 0x918)) ∧
     exec (.pipBankCfgWrite fn n v) s = .next (event n 0xC04 0 [] (c 0xC00)) ∧
     exec (.pipBankAgeWrite fn n v) s = .next (event n 0xC04 0 [] (c 0xC04)) ∧
     exec (.pipStageWrite fn n k v) s = .next (event n 0xC04 0 [] (c (0xC40 + 0x20 * k.val))) ∧
     exec (.ashCfgWrite fn n v) s = .next (event n 0xD08 0 [] (c 0xE40)) ∧
     exec (.ashRingWrite fn n 0 v) s = .next (event n 0xD08 0 [] (c 0xE44)))

/-- R227: a write of the counter window sets the counter, and one of the add window adds modulo 2^32; waits are
evaluated after it. With no operation in flight and no ash record waiting, no other counter changes. -/
def Obligations.CountersAreWrittenAndAdded : Prop :=
  ∀ (s : State) (fn : Fn) (n : Fin 32) (k : BitVec 12) (v : W32), reaches s fn n →
    exec (.counterWrite fn n k v) s =
      .next (noteWaits n (changeCounter n k.toNat v (counted s n (0x10000 + 4 * k.toNat)))) ∧
    exec (.counterAdd fn n k v) s =
      .next (noteWaits n (changeCounter n k.toNat (counterOf (chOf s n) k.toNat + v) (counted s n (0x14000 + 4 * k.toNat)))) ∧
    ((chOf s n).ops = [] → (chOf s n).ash = [] →
      (∃ t, exec (.counterWrite fn n k v) s = .next t ∧ counterOf (chOf t n) k.toNat = v ∧
        (∀ j, j ≠ k.toNat → counterOf (chOf t n) j = counterOf (chOf s n) j) ∧ sameMemory s t) ∧
      (∃ t, exec (.counterAdd fn n k v) s = .next t ∧ counterOf (chOf t n) k.toNat = counterOf (chOf s n) k.toNat + v ∧
        (∀ j, j ≠ k.toNat → counterOf (chOf t n) j = counterOf (chOf s n) j) ∧ sameMemory s t))

/-- R360: a write of CHM_JOB that changes it puts the chamber's energy record of the old job on its ring, clears
PWR_ENERGY and takes the new value; one with the old value changes nothing. R360 to R366: housekeeping and energy. A
conversion gives its channel a value (a failed sensor shows its stand-in, which follows the sensors of its die); a
write of HK_TRIG asks for one, and is ignored with event 0x1009 outside Ready and for a channel there is not; a
round's end judges the sensors, then the bands, the thermal terms and the trips. The energy of a window that no
chamber's clusters used is shared out without a rest, and a chamber that does not run is credited with its own
clusters' energy alone. -/
def Obligations.EnergyAndHousekeeping : Prop :=
  (∀ (s : State) (fn : Fn) (n : Fin 32) (v : W32), reaches s fn n →
     (v ≠ creg s n 0x10 → ∃ t, exec (.chmJobWrite fn n v) s = .next t ∧ creg t n 0x10 = v ∧ cpair 0x1100 (chOf t n) = 0 ∧
       t = setCreg n 0x10 v (modCh n (csetPair 0x1100 0)
         (raiseRec (some n.val) 0x1004 false (energyRecord s n) (counted s n 0x10)))) ∧
     (v = creg s n 0x10 → exec (.chmJobWrite fn n v) s = .next (counted s n 0x10))) ∧
  ((∀ (s : State) (n : BitVec 8) (v : W16), isReady s = true → n.toNat < 224 →
     ∃ t, exec (.hkConversion n v) s = .next t ∧
       ((hkOf s n.toNat).failed = false → hkOf t n.toNat = { hkOf s n.toNat with
         value := v, valid := true, pending := false, round := BitVec.ofNat 8 s.hkRound }) ∧
       (hkOf t n.toNat).valid = true ∧ (hkOf t n.toNat).pending = false ∧
       (∀ j, j ≠ n.toNat → ((hkOf s j).failed = false ∨ 128 ≤ j ∨ 128 ≤ n.toNat ∨ j / 64 ≠ n.toNat / 64) →
         hkOf t j = hkOf s j) ∧ { t with hk := s.hk, g := s.g } = s) ∧
   (∀ (s : State) (v : W32), served s 0 →
     let c := countedG s 0x3050
     (isReady s = true → fld v 7 0 < 224 → (hkOf s (fld v 7 0)).pending = false → exec (.hkTrig v) s =
       .next { c with hk := Tab.set {} (fld v 7 0) { hkOf s (fld v 7 0) with pending := true } s.hk }) ∧
     ((isReady s = false ∨ 224 ≤ fld v 7 0) → exec (.hkTrig v) s = .next (eventG 0x1009 [] c))) ∧
   (∀ s : State, isReady s = true →
     let temps := List.range 128
     let a := forAll temps (fun n t => standIn t n) (forAll temps (judgeSensor s) s)
     let b := forAll [0, 1] thermalRound (forAll [0, 1] bandRound a)
     let d := forAll temps heatRound { b with hkRound := b.hkRound + 1 }
     (temps.any (fun n => decide (2 ≤ (hkOf d n).hot)) = false → exec .hkRoundEnd s = .next d) ∧
     (temps.any (fun n => decide (2 ≤ (hkOf d n).hot)) = true → exec .hkRoundEnd s = .next (trip 0x100A d))) ∧
   (∀ (total whole_ : Nat) (ws : List Nat), ws.sum = total → 0 < total → (splitShares total whole_ ws 0).sum = whole_) ∧
   (∀ (s : State) (input peak : Nat) (cluster : List Nat), isReady s = true →
     ∃ t, exec (.energyWindow input peak cluster) s = .next t ∧ t.coord.lastIn = input ∧
       (∀ n, n < 32 → defined s n = true → isRunning s n = false →
         cpair 0x1100 (chOf t n) = (cpair 0x1100 (chOf s n) + ownEnergy (chOf s n) cluster) % 2 ^ 64) ∧
       (∀ n, defined s n = false → chOf t n = chOf s n) ∧ sameMemory s t))

/-- R316, R319: START of a sweep that R316 does not refuse clears the summary, sets the position to BASE and the
state to RUNNING; a refused START sets REFUSED and leaves the state; ABORT ends a running sweep ABORTED with its
record, and does nothing to one that does not run. R317: the check of a clean word of a running chamber sweep over
the gallery moves the position one word on and finds nothing; an invalid word is counted and not decoded. No memory
changes. -/
def Obligations.SweepsRunOverTheirWords : Prop :=
  (∀ (s : State) (fn : Fn) (n : Fin 32), reaches s fn n →
     let c := counted s n 0x1080
     (swpRefused c (.chamber n) = false → ∃ t, exec (.swpStart fn (.chamber n)) s = .next t ∧
       swpState t (.chamber n) = 1 ∧ swpPair t (.chamber n) 0x1C = swpPair s (.chamber n) 8 ∧
       swpGet t (.chamber n) 0x24 = 0 ∧ swpGet t (.chamber n) 0x28 = 0 ∧ sameMemory s t) ∧
     (swpRefused c (.chamber n) = true → ∃ t, exec (.swpStart fn (.chamber n)) s = .next t ∧
       swpState t (.chamber n) = swpState s (.chamber n) ∧ bit (swpGet t (.chamber n) 0x18) 2 = true ∧ sameMemory s t) ∧
     (swpState s (.chamber n) = 1 → exec (.swpAbort fn (.chamber n)) s = .next (swpEnd (.chamber n) 3 c)) ∧
     (swpState s (.chamber n) ≠ 1 → exec (.swpAbort fn (.chamber n)) s = .next c)) ∧
  (∀ (s : State) (n : Fin 32) (core off : Nat), swpState s (.chamber n) = 1 → swpSpace s (.chamber n) = 0 →
     winLoc s (chOf s n) (swpPair s (.chamber n) 0x1C) = some (core, off) →
     swpPair s (.chamber n) 0x1C + 32 < swpPair s (.chamber n) 8 + swpPair s (.chamber n) 0x10 →
     swpPair s (.chamber n) 0x1C + 32 < 2 ^ 64 →
     (Tab.get false (galKey core off / 32) s.galValid = true → Tab.get 0 (galKey core off / 32) s.galErr = 0 →
       exec (.sweepWordCheck (.chamber n)) s =
         .next (swpSetPair (.chamber n) 0x1C (swpPair s (.chamber n) 0x1C + 32) s)) ∧
     (Tab.get false (galKey core off / 32) s.galValid = false →
       ∃ t, exec (.sweepWordCheck (.chamber n)) s = .next t ∧
         swpPair t (.chamber n) 0x3C = (swpPair s (.chamber n) 0x3C + 1) % 2 ^ 64 ∧ sameMemory s t))

/-- R322, R323: a raw READ that R323 does not ignore shows the stored data, check and valid bit of the word and
changes no memory; a raw WRITE stores data and check as given, sets the valid bit, and a later read of that word
decodes them; an ignored command raises 0x0F05; the end of a command clears BUSY. -/
def Obligations.RawAccessReadsAndWritesWords : Prop :=
  (∀ (s : State) (fn : Fn) (n : Fin 32) (core off : Nat), reaches s fn n → rawRefused s n = false →
    winLoc s (chOf s n) (cpair 0x1024 (chOf s n)) = some (core, off) →
    (∃ t, exec (.rawRead fn n) s = .next t ∧ bit (creg t n 0x102C) 0 = true ∧ sameMemory s t ∧
      (Tab.get false (galKey core off / 32) s.galValid = true →
        creg t n 0x102C = 3 ∧ rawData (chOf t n) = BitVec.ofNat 256 (leNat (galStored core off s)))) ∧
    (∃ t, exec (.rawWrite fn n) s = .next t ∧ bit (creg t n 0x102C) 0 = true ∧
      galStored core off t = natLe 32 (rawData (chOf s n)).toNat ∧
      Tab.get false (galKey core off / 32) t.galValid = true ∧
      Tab.get 0 (galKey core off / 32) t.galErr = galCheck (rawData (chOf s n)) ^^^ (creg s n 0x1050).truncate 16)) ∧
  (∀ (s : State) (fn : Fn) (n : Fin 32), reaches s fn n → rawRefused s n = true →
    ∃ t, exec (.rawRead fn n) s = .next (event n 0xF05 0 [] t) ∧ sameMemory s t ∧ bit (creg t n 0x1000) 2 = true) ∧
  (∀ (s : State) (n : Fin 32), ∃ t, exec (.rawCommandComplete n) s = .next t ∧ bit (creg t n 0x102C) 0 = false ∧ sameMemory s t)

/-- R378, R380: an event ring's block. EVR_CFG takes its bits while EN = 0, and EN from 0 to 1 zeroes EVR_WR and
EVR_RD; while EN = 1 a write that would change EVR_SIZE is ignored with event 0x1101, and EVR_RD takes any value. -/
def Obligations.EventRingsAreConfiguredWhileOff : Prop :=
  ∀ (s : State) (fn : Fn) (n : Fin 32) (v : W32), reaches s fn n →
    (bit (creg s n 0x1200) 0 = false → bit v 0 = true → ∃ t, exec (.evrCfgWrite fn (.chamber n) 0 v) s = .next t ∧
      creg t n 0x1200 = v &&& 0x3F3F3F03#32 ∧ creg t n 0x1218 = 0 ∧ creg t n 0x121C = 0) ∧
    (bit (creg s n 0x1200) 0 = false → exec (.evrCfgWrite fn (.chamber n) 4 v) s =
      .next (setCreg n 0x1204 (v &&& 0x1F#32) (counted s n 0x1204))) ∧
    (bit (creg s n 0x1200) 0 = true → v &&& 0x1F#32 ≠ creg s n 0x1204 →
      exec (.evrCfgWrite fn (.chamber n) 4 v) s = .next (eventG 0x1101 [] (counted s n 0x1204))) ∧
    (exec (.evrCfgWrite fn (.chamber n) 0x1C v) s = .next (setCreg n 0x121C v (counted s n 0x121C)))

/-- R217: a register write of the PF that arrives while BAR2 writes are not yet performed is held, takes no effect, and
notes the units it waits for; REGISTER_WRITE_RELEASE gives the oldest held write its effect once none of them is left,
and leaves it held until then. R183, R184, R333, R373: the bulk window. A write of a whole unit of a chamber's range
puts the unit in memory under the chamber's keys at once, and no other unit changes; a part of a unit waits in a
merge buffer, and is discarded 10 µs after its first byte; an access that touches a unit which a rotation holds waits;
a read answers the data and changes no data memory; an address that no chamber has reads 0; a read that reaches beyond
the BAR2 size is answered as an unclaimed request, and such a write is ignored. -/
def Obligations.WindowAndHeldWrites : Prop :=
  ((∀ (s : State) (off : BitVec 26) (v : W32), fnUp s 0 = true → openUnits s ≠ [] → off.toNat % 4 = 0 →
     off.toNat + 4 ≤ 2 ^ 26 → isBuffer off.toNat = false →
     exec (.registerWrite 0 off (allBytes v)) s = .next { s with heldWrites := s.heldWrites ++
       [{ fn := 0, off := off.toNat, v := v, units := openUnits s }] }) ∧
   (∀ s : State, s.bar2Wait = [] → openUnits s = s.merge.map (·.unit)) ∧
   (∀ (s : State) (fn : Fn) (h : HeldWrite), s.heldWrites.find? (fun h => h.fn == fn) = some h →
     (h.units = [] → exec (.registerWriteRelease fn) s = .next (writeAt fn h.off h.v { s with heldWrites := s.heldWrites.erase h })) ∧
     (h.units ≠ [] → exec (.registerWriteRelease fn) s = .next s)) ∧
   (∀ (s : State) (fn : Fn), s.heldWrites.find? (fun h => h.fn == fn) = none → exec (.registerWriteRelease fn) s = .next s)) ∧
  ((∀ (s : State) (off : BitVec 36) (bs : Bytes) (n : Nat), hostUp s = true → hostFrozen s = false →
     off.toNat + 64 ≤ 2 ^ s.pcie.bar2Log → bs.length = 64 → windowAddr s off.toNat % 64 = 0 → s.merge = [] →
     windowAddr s off.toNat < bulkSize → bulkOwner s (windowAddr s off.toNat) = some n →
     unitStalled s (windowAddr s off.toNat) = false →
     ∃ t, exec (.bar2Write off bs) s = .next t ∧ t.merge = [] ∧
       bulkUnit t (keyAt (chOf s n) (windowAddr s off.toNat)) (windowAddr s off.toNat) = bs ∧
       (∀ k q, q / 64 ≠ windowAddr s off.toNat / 64 → bulkByte t k q = bulkByte s k q) ∧ t.core = s.core ∧ t.gal = s.gal) ∧
   (∀ (s : State) (off : BitVec 36) (b : W8), hostUp s = true → hostFrozen s = false → off.toNat + 1 ≤ 2 ^ s.pcie.bar2Log →
     mapped s (windowAddr s off.toNat / 64 * 64) = true → barStalled s (windowAddr s off.toNat) 1 = false → s.merge = [] →
     ∃ t m, exec (.bar2Write off [b]) s = .next t ∧ t.merge = [m] ∧ m.unit = windowAddr s off.toNat / 64 ∧
       m.bytes[windowAddr s off.toNat % 64]? = some (some b) ∧ sameMemory s t) ∧
   (∀ (s : State) (off : BitVec 36) (bs : Bytes), hostUp s = true →
     (hostFrozen s = false → off.toNat + bs.length ≤ 2 ^ s.pcie.bar2Log →
       barStalled s (windowAddr s off.toNat) bs.length = true → exec (.bar2Write off bs) s =
         .next { s with bar2Wait := s.bar2Wait ++ [⟨windowAddr s off.toNat, bs.length, some bs⟩] }) ∧
     ((hostFrozen s = true ∨ 2 ^ s.pcie.bar2Log < off.toNat + bs.length) → exec (.bar2Write off bs) s = .next s)) ∧
   (∀ (s : State) (u : BitVec 33) (m : Merge), s.merge.find? (fun m => m.unit == u.toNat) = some m → unitFull m = false →
     (m.first.toNat + 10000 ≤ now s → exec (.mergeBufferTimeout u) s = .next (discardUnit u.toNat s)) ∧
     (now s < m.first.toNat + 10000 → exec (.mergeBufferTimeout u) s = .next s)) ∧
   (∀ (s : State) (off : BitVec 36) (len : BitVec 13), hostUp s = true → off.toNat + len.toNat ≤ 2 ^ s.pcie.bar2Log →
     (barStalled s (windowAddr s off.toNat) len.toNat = true → exec (.bar2Read off len) s =
       .next { s with bar2Wait := s.bar2Wait ++ [⟨windowAddr s off.toNat, len.toNat, none⟩] }) ∧
     (barStalled s (windowAddr s off.toNat) len.toNat = false →
       exec (.bar2Read off len) s = .next (windowRead (windowAddr s off.toNat) len.toNat s))) ∧
   (∀ (s : State) (a len n : Nat), 1 ≤ len → a % 64 + len ≤ 64 → a / 64 * 64 < bulkSize →
     bulkOwner s (a / 64 * 64) = some n → Tab.get 0 (a / 64) s.bulkErr = 0 →
     (windowRead a len s).out =
       .cpl 0 (slice (bulkUnit s (keyAt (chOf s n) (a / 64 * 64)) (a / 64 * 64)) (a % 64) len) false :: s.out ∧
     sameMemory s (windowRead a len s)) ∧
   (∀ (s : State) (a len : Nat), 1 ≤ len → a % 64 + len ≤ 64 → mapped s (a / 64 * 64) = false →
     windowRead a len s = emit (.cpl 0 (List.replicate len 0) false) s) ∧
   (∀ (s : State) (off : BitVec 36) (len : BitVec 13), (hostUp s = false ∨ 2 ^ s.pcie.bar2Log < off.toNat + len.toNat) →
     exec (.bar2Read off len) s = .next (emit (.cplUr 0) s)))

/-! ## Operations of the lists -/

/-- R220, R221, R222: the fetch of descriptors. Lists are read in turn: the read is that of the first list after the one
read last that has something to fetch, and a command that names another list changes nothing. Up to 8 descriptors are
fetched while the chamber may fetch. Each operation takes the list's next number (its list in bits [31:29], its count
in [28:0]), OPS_FETCH moves on by one entry, and the operation is staged with the check switches of CHM_PROT, banked
where its completion counter lies in the banked range (R244); one whose header is not of Table OPS-1 is refused with
0x0B02. -/
def Obligations.DescriptorsAreFetchedAndStaged : Prop :=
  (∀ (s : State) (n : Fin 32) (k : Fin 8), nextFetch (chOf s n) = some k.val →
    exec (.descriptorFetch n k) s =
      .next (settleAll n (fetchSome n k 8 (setCh n { chOf s n with turn := k.val } s)))) ∧
  (∀ (s : State) (n : Fin 32) (k : Fin 8), nextFetch (chOf s n) ≠ some k.val → exec (.descriptorFetch n k) s = .next s) ∧
  (∀ (c : Chamber) (k : Nat), nextFetch c = some k → k < 8 ∧ mayFetch c k = true ∧
    ∀ j, j < 8 → (j + 7 - c.turn % 8) % 8 < (k + 7 - c.turn % 8) % 8 → mayFetch c j = false) ∧
  (∀ (c : Chamber), nextFetch c = none → ∀ k, k < 8 → mayFetch c k = false) ∧
  (∀ (s t : State) (n k : Nat) (desc : Bytes),
    bulkLoad n (agent 4) (entryAddr (chOf s n) k (Tab.get {} k (chOf s n).lists).fetch) 128 false s = (.ok desc, t) →
    let r := takeEntry n k desc t
    (headerBad r.1 = true → fetchOne n k s =
      failOp n r.1.seq .refused 0xB02 [] (opsFault 0xB02 r.1.seq.toNat 0) r.2) ∧
    (headerBad r.1 = false → bodyRefusal n r.1 r.2 = none → fetchOne n k s = stageOp n r.1 r.2)) ∧
  (∀ (s : State) (n k : Nat), mayFetch (chOf s n) k = true → ∀ f, fetchSome n k (f + 1) s = fetchSome n k f (fetchOne n k s)) ∧
  (∀ (s : State) (n k : Nat), mayFetch (chOf s n) k = false → ∀ f, fetchSome n k f s = s) ∧
  (∀ (s : State) (n k : Nat) (desc : Bytes),
    let l := Tab.get {} k (chOf s n).lists
    let r := takeEntry n k desc s
    r.1.seq = BitVec.ofNat 32 (k * 2 ^ 29 + l.count % 2 ^ 29) ∧ r.1.desc = desc ∧ r.1.state = .fetched ∧
    (Tab.get {} k (chOf r.2 n).lists).fetch = (l.fetch + 1) % listSize (chOf s n) k ∧
    (Tab.get {} k (chOf r.2 n).lists).tail = l.tail ∧ (Tab.get {} k (chOf r.2 n).lists).head = l.head ∧
    (chOf r.2 n).ops = (chOf s n).ops ++ [r.1] ∧ sameMemory s r.2) ∧
  (∀ (s : State) (n : Nat) (o : Op), opOf (chOf s n) o.seq = some o →
    ∃ q, opOf (chOf (stageOp n o s) n) o.seq = some q ∧ q.state = .staged ∧ q.desc = o.desc ∧
      q.laneOff = bit (creg s n 0x14) 0 ∧ q.colOff = bit (creg s n 0x14) 1 ∧ q.banked = isBanked (chOf s n) o)

/-- R223, R247, R254: the next staged operation of a list that is not of the matrix class starts when it may, and the
engine of an alcove takes the operation that R247 chooses, where no EPOCH holds it back; an operation of the sequencer,
transfer or cache class that starts is EXECUTING from this time on. An engine that is not free, and a list whose next
operation may not start, leave every operation as it was. -/
def Obligations.OperationsStartWhenTheyMay : Prop :=
  (∀ (s : State) (n : Fin 32) (k : Fin 8) (o : Op), (listOps (chOf s n) k).find? (fun q => q.state == .staged) = some o →
    (isRunning s n = true → isMatrix (opType o) = false → startable s n o = true →
      exec (.operationStart n k false) s = .next (settleAll n (startOp n o s))) ∧
    ((isRunning s n = false ∨ isMatrix (opType o) = true ∨ startable s n o = false) →
      exec (.operationStart n k false) s = .next (settleAll n s))) ∧
  (∀ (s : State) (n : Fin 32) (k : Fin 8), (listOps (chOf s n) k).find? (fun q => q.state == .staged) = none →
    exec (.operationStart n k false) s = .next (settleAll n s)) ∧
  (∀ (s : State) (n : Nat) (o : Op), opOf (chOf s n) o.seq = some o → isMatrix (opType o) = false → opType o ≠ 3 →
    ∃ q, opOf (chOf (startOp n o s) n) o.seq = some q ∧ q.state = .executing ∧ q.start = s.time ∧ q.desc = o.desc ∧
      q.begun = o.begun) ∧
  (∀ (s : State) (n : Fin 32) (k : Fin 8) (o : Op), (chOf s n).st = .running → engineFree (chOf s n) k = true →
    chainOf (chOf s n) k = none → choose s n k = some (o, false) →
    let t := if epochBlocks (chOf s n) o = true then s else startOp n o s
    exec (.operationStart n k true) s = .next (settleAll n t) ∧
    (bankHead (chOf s n) k = some o → bankForced s (chOf s n) o = false →
      exec (.bankAgeForce n k) s = .next s)) ∧
  (∀ (s : State) (n : Fin 32) (k : Fin 8) (o : Op), (chOf s n).st = .running → engineFree (chOf s n) k = true →
    chainOf (chOf s n) k = none → choose s n k = some (o, true) →
    let f := modCh n (cmod 0xC08 (fun w => setBit w 7 true)) s
    let t := if epochBlocks (chOf s n) o = true then f else startOp n o f
    exec (.operationStart n k true) s = .next (settleAll n t) ∧
    (bankHead (chOf s n) k = some o → bankForced s (chOf s n) o = true →
      exec (.bankAgeForce n k) s = .next (settleAll n t))) ∧
  (∀ (s : State) (n : Fin 32) (k : Fin 8), engineFree (chOf s n) k = false →
    exec (.operationStart n k true) s = .next (settleAll n s)) ∧
  (∀ (s : State) (n : Fin 32) (k : Fin 8), bankHead (chOf s n) k = none → exec (.bankAgeForce n k) s = .next s)

/-- R224, R225: a retirement takes the operation out of flight, adds its increment to its completion counter exactly
when its status is OK, and leaves every other counter. -/
def Obligations.RetirementCountsOnlyWhenOk : Prop :=
  (∀ (s : State) (n : Nat) (o : Op) (st : Status), opOf (chOf (retireOp n o st s) n) o.seq = none ∧
    (st = .ok → doneInc o ≠ 0 → counterOf (chOf (retireOp n o st s) n) (doneCnt o) =
      counterOf (chOf s n) (doneCnt o) + BitVec.ofNat 32 (doneInc o)) ∧
    (∀ k, (st ≠ .ok ∨ doneInc o = 0 ∨ k ≠ doneCnt o) →
      counterOf (chOf (retireOp n o st s) n) k = counterOf (chOf s n) k)) ∧
  (∀ (s : State) (n : Fin 32) (seq : W32) (o : Op), opOf (chOf s n) seq = some o →
    (o.state = .retiring → exec (.operationRetire n seq) s = .next (settleAll n (retireOp n o .ok s))) ∧
    (o.state ≠ .retiring → exec (.operationRetire n seq) s = .next s))

/-- R111, R113, R103, R238, R266, R267, R274, R278, R208, R255, R400, R234: an operation that is EXECUTING and has not
begun its work does it, each type its own. MATMUL and CONV compute their tiles, count, and write them or keep them for
the operation that continues their chain; REDUCE leaves its result in the block at its destination, or adds it at a
remote address; UPDATE applies every unit with the factor of its parameters, or skips the step; SEAL reads its loss and
records the step, as spiked or not; FLUSH and EPOCH send and invalidate their lines; a SNAPSHOT whose banks have all
latched writes its dump, and does nothing before 2 µs after its start; a TRANSFER asks for its source. Where an access
of the work faults the operation fails with that fault (JobFatalFaultsHaltTheChamber). -/
def Obligations.ExecutingOperationsDoTheirWork : Prop :=
  ∀ (s : State) (n : Fin 32) (seq : W32) (o : Op), o.begun = false →
    let begun := fun (t : State) => setOp n o.seq (fun q => { q with begun := true }) t
    (∀ c ∈ [(1, Instr.matmul n seq), (2, Instr.conv n seq)], executing s n seq [c.1] = some o →
      ∀ ts t, matCompute n o (linkedTo (chOf s n) o) s = (.ok (.ok ts), t) →
        let ps := if accOut o = 1 then [] else outParts o ts
        let u := if keptSat (chOf s n) o = true
          then modCh n (fun d => cmod 0x400 (fun w => setBit w 0 true)
            (modOp o.seq (fun q => { q with satFlag := true }) d)) (matCounts n o ts ps t)
          else matCounts n o ts ps t
        (nextJoins n o u = true →
          exec c.2 s = .next (settleAll n (stageAhead n o.list s (linkOp n o ts (modCh n (holdTiles o ts) u))))) ∧
        (∀ v, nextJoins n o u = false → outputParts n o ps u = (.ok (), v) →
          exec c.2 s = .next (settleAll n
            (closeOp n o (linkedTo (chOf s n) o) (stageAhead n o.list s (modCh n (holdTiles o ts) v)))))) ∧
    (executing s n seq [5] = some o → ∀ bs t, 0 < df o 0x20 8 →
      dLoad n (agent 2) (df o 0x2A 1) (df o 0x10 8) ((if df o 0x28 1 = 7 then 2 else 4) * df o 0x20 8) s = (.ok bs, t) →
        let r := reduceResult (df o 0x29 1) ((List.range (df o 0x20 8)).map (fun i =>
          if df o 0x28 1 = 7 then decodeF bf16 (at_ bs (2 * i) 2) else decodeF f32 (at_ bs (4 * i) 4)))
        let bad := if finite32 r.1 = true then 0 else 1
        let u := modCh n (fun d => caddPair 0xE10 bad (modOp o.seq (fun q => { q with nonfin := bad }) d)) t
        (∀ v, df o 0x2B 1 ≠ 1 → dStore n (agent 2) (df o 0x2C 1) (df o 0x18 8)
            (natLe 4 r.1.toNat ++ natLe 4 (min r.2 0xFFFFFFFF) ++ natLe 8 (df o 0x20 8) ++ List.replicate 48 0) u = (.ok (), v) →
          exec (.reduce n seq) s = .next (settleAll n (begun v))) ∧
        (df o 0x2B 1 = 1 → badRemote (chOf s n) (df o 0x18 8) = false →
          exec (.reduce n seq) s = .next (settleAll n (begun (contribute n
            { seq := o.seq, fn := if df o 0x29 1 = 2 then 3 else 0, addr := BitVec.ofNat 64 (lineAddr (df o 0x18 8)), hint := 0
              mask := byteMask (df o 0x18 8 % 256) 4
              data := List.replicate (df o 0x18 8 % 256) 0 ++ natLe 4 r.1.toNat } u))))) ∧
    (executing s n seq [6] = some o → ∀ bs t, bulkLoad n (agent 1) (df o 0x40 8) 64 false s = (.ok bs, t) →
      let p := paramsOf bs
      let done := fun (f : W32) (u : State) => ∀ v, eachRes (doUnit n o p f) (List.range (df o 0x58 4 / 64)) u = (.ok (), v) →
        exec (.update n seq) s = .next (settleAll n (stageAhead n o.list s
          (modCh n (fun d => modOp o.seq (fun q => { q with begun := true }) { d with stepUpdates := d.stepUpdates + 1 }) v)))
      (df o 0x60 4 / 2 ^ 9 % 2 = 0 → done 0x3F800000#32 t) ∧
      (∀ sb u, df o 0x60 4 / 2 ^ 9 % 2 = 1 → dLoad n (agent 1) (df o 0x60 4 / 2 ^ 4 % 4) (df o 0x38 8) 4 t = (.ok sb, u) →
        let sum := BitVec.ofNat 32 (leNat sb)
        (clipFactor p (creg u n 0xE00) (sqrtF sum) = none →
          exec (.update n seq) s = .next (settleAll n (stageAhead n o.list s (skipUpdate n o sum (sqrtF sum) u)))) ∧
        (∀ f, clipFactor p (creg u n 0xE00) (sqrtF sum) = some f → done f u))) ∧
    (executing s n seq [0xB] = some o →
      (df o 0x14 4 % 2 = 0 → exec (.seal n seq) s = .next (settleAll n (writeSeal n o false false 0 s))) ∧
      (∀ lb t, df o 0x14 4 % 2 = 1 → dLoad n (agent 4) (df o 0x14 4 / 2 % 2) (df o 0x18 8) 4 s = (.ok lb, t) →
        let l := BitVec.ofNat 32 (leNat lb)
        let d := detect (chOf t n) l
        let u := setCreg n 0xE34 l t
        (d.1 = false → exec (.seal n seq) s = .next (settleAll n
          (writeSeal n o false true l (modCh n (fun c => cset 0xE38 d.2.2 (cset 0xE30 d.2.1 c)) u)))) ∧
        (d.1 = true → bit (creg t n 0xE28) 4 = false → exec (.seal n seq) s = .next (settleAll n
          (writeSeal n o true true l (raiseSpike n o false l u)))) ∧
        (d.1 = true → bit (creg t n 0xE28) 4 = true → exec (.seal n seq) s = .next (settleAll n
          (retireOp n { o with ended := u.time } .fault (raiseSpike n o true l (haltFor n o.seq 0xD02 u))))))) ∧
    (executing s n seq [0xC] = some o → exec (.flush n seq) s = .next (settleAll n (runFlush n o s)) ∧
      (df o 0x20 4 / 2 % 2 = 1 → ∀ l ∈ (chOf (runFlush n o s) n).lines, inScope o l.addr.toNat = true → l.st ≠ .read) ∧
      (∀ q, opOf (chOf (runFlush n o s) n) seq = some q → q.begun = true)) ∧
    (executing s n seq [9] = some o → exec (.epoch n seq) s = .next (settleAll n (runEpoch n o s)) ∧
      creg (runEpoch n o s) n 0xC0C = BitVec.ofNat 32 ((if df o 0x10 1 = 1 then df o 0x12 2
        else (fld (creg s n 0x808) 15 0 + 1) % 65536) * 65536 + 1) ∧
      (df o 0x11 1 % 2 = 1 → ∀ l ∈ (chOf (runEpoch n o s) n).lines, l.st ≠ .read) ∧
      (∀ q, opOf (chOf (runEpoch n o s) n) seq = some q → q.begun = true)) ∧
    (executing s n seq [0xA] = some o →
      (s.time.toNat < o.start.toNat + 2000 → exec (.snapshot n seq) s = .next s) ∧
      (o.start.toNat + 2000 ≤ s.time.toNat →
        let u := snapTick n s
        (∀ r, (chOf u n).snap = some r → r.left ≠ [] → exec (.snapshot n seq) s = .next (settleAll n u)) ∧
        (∀ r, (chOf u n).snap = some r → r.left = [] → df o 0x18 1 = 2 →
          exec (.snapshot n seq) s = .next (settleAll n (begun (modCh n (fun c => { c with snap := none }) u)))) ∧
        (∀ r v, (chOf u n).snap = some r → r.left = [] → df o 0x18 1 ≠ 2 →
          dStore n (agent 4) (df o 0x18 1) (df o 0x10 8) (dumpBytes u n o.seq (o.start.toNat + 2000)) u = (.ok (), v) →
          exec (.snapshot n seq) s = .next (settleAll n (begun (modCh n (fun c => { c with snap := none }) v)))))) ∧
    (executing s n seq [4] = some o →
      let i := streamOf o
      let t := streamAt (chOf s n) i
      let a := t.src.toNat + arrivedBytes t
      exec (.transfer n seq) s = .next (settleAll n (askBurst n i s)) ∧
      (srcSpace t ≤ 1 → askBurst n i s = s) ∧
      (streamLive t = true → arrivedBytes t < t.length → srcSpace t = 3 → canIssue s (chFn s n) = true →
        s.hostReads.any (fun r => r.ch == n.val && r.stream == i && r.seq == t.seq) = false → s.hostReads.length < 768 →
        (askBurst n i s).out = .hostRead (chFn s n) s.pcie.hostTag (BitVec.ofNat 64 a)
          (min (burstLen t) (128 * 2 ^ Tab.get 2 (chFn s n).val s.pcie.readSize)) :: s.out) ∧
      (streamLive t = true → arrivedBytes t < t.length → srcSpace t = 2 → badRemote (chOf s n) a = false →
        (chOf s n).reqs.any (fun r => r.kind == .streamRead && r.stream == i) = false →
        askBurst n i s = request n
          { tag := newTag (chOf s n), kind := .streamRead, addr := BitVec.ofNat 64 (lineAddr a), deadline := 0, seq := t.seq
            pkt := toOwner s n (lineAddr a) 1 (addrField (lineAddr a) ++ natLe 4 (newTag (chOf s n))), stream := i } s))

/-- R134, R169: a KERNEL that has placed no block places its first where the dispatcher finds room, and
BLOCK_DISPATCH places the next one; without room no group is placed. A new thread is live at call depth 0, waits for
nothing, and every register of it is 0 but T7, which holds the address of its spill area. -/
def Obligations.KernelsPlaceTheirBlocks : Prop :=
  (∀ (s t : State) (n : Fin 32) (seq : W32) (o : Op), executing s n seq [3] = some o → o.blocksPlaced < kBlocks o →
    earlierPlaced (chOf s n) o = true → placeBlock n o s = some t →
    (o.blocksPlaced = 0 → exec (.kernel n seq) s = .next (settleAll n t)) ∧
    exec (.blockDispatch n seq) s = .next (settleAll n t)) ∧
  (∀ (s : State) (n : Fin 32) (seq : W32) (o : Op), executing s n seq [3] = some o → placeBlock n o s = none →
    exec (.blockDispatch n seq) s = .next (settleAll n s)) ∧
  (∀ (spill i : Nat), (newThread spill i).live = true ∧ (newThread spill i).depth = 0 ∧ (newThread spill i).wait = .run ∧
    (∀ c, c ≠ 127 → Tab.get 0 c (newThread spill i).regs = 0) ∧
    Tab.get 0 127 (newThread spill i).regs = BitVec.ofNat 32 (0x200000 + i * spill))

/-- R227, R228, R229: a SIGNAL to a counter of its own chamber sets it or adds to it, and retires; one to a peer sends
its message to the counter's owner, and retires; an executing WAIT is evaluated, its condition is that the counter has
reached its target modulo 2^32, and one whose condition holds retires. R236, R234: a burst from local memory that
arrives for a live stream is handed to the stream, and one that cannot be read fails the TRANSFER; a host burst enters
under the read that is outstanding; of a burst from a remote owner the bytes that a port has received are handed on; a
stream that has ended takes nothing. What arrives is held until a 64-byte unit is complete, and LAST_PROGRESS is its
time. A stream whose bytes have not come for 1 µs shows STALLED, and before that stays as it was. -/
def Obligations.SignalsWaitsAndStreams : Prop :=
  ((∀ (s : State) (n : Fin 32) (seq : W32) (o : Op), executing s n seq [7] = some o →
     let k := df o 0x12 2
     let v := BitVec.ofNat 32 (df o 0x14 4)
     let u := changeCounter n k (if df o 0x11 1 = 1 then v else counterOf (chOf s n) k + v) s
     let ra := df o 0x10 1 * 2 ^ 56 + k
     let tag := newTag (chOf s n)
     let w := request n
       { tag := tag, kind := .signal, addr := BitVec.ofNat 64 ra, deadline := 0, seq := o.seq
         pkt := toOwner s n ra 4 (natLe 4 tag ++ slice o.desc 0x12 2 ++ slice o.desc 0x11 1 ++ natLe 1 0 ++ slice o.desc 0x14 4) } s
     (df o 0x10 1 = 0xFF → exec (.signal n seq) s = .next (settleAll n (retireOp n { o with ended := u.time } .ok u))) ∧
     (df o 0x10 1 ≠ 0xFF → exec (.signal n seq) s = .next (settleAll n (retireOp n { o with ended := w.time } .ok w)))) ∧
   (∀ (s : State) (n : Fin 32) (seq : W32) (o : Op), executing s n seq [8] = some o →
     exec (.wait n seq) s = .next (settleAll n s)) ∧
   (∀ (s : State) (n : Fin 32) (o : Op) (l : List Op), (chOf s n).ops = o :: l → (chOf s n).ash = [] → o.state = .executing → opType o = 8 →
     waitHolds (chOf s n) o = true →
       settle n s = settleLoop n (l.length + 1) (retireOp n { o with ended := s.time } .ok
         (bump (64 + leaderDie (chOf s n)) 12 1 (modCh n (fun c => { c with ashFrom := none }) s)))) ∧
   (∀ (c : Chamber) (o : Op), waitHolds c o = true ↔
     ((counterOf c (df o 0x10 2)) - BitVec.ofNat 32 (df o 0x14 4)).toNat < 2 ^ 31)) ∧
  (∀ (s : State) (n : Fin 32) (i : BitVec 18) (k : BitVec 9) (data : Bytes),
     let t := streamAt (chOf s n) i.toNat
     (∀ bs u, streamLive t = true → srcSpace t ≤ 1 → localBurst n t k.toNat s = (.ok bs, u) →
       exec (.sourceBurstArrival n i k data) s = .next (settleAll n (streamBytesIn n i.toNat bs u))) ∧
     (∀ e u, streamLive t = true → srcSpace t ≤ 1 → localBurst n t k.toNat s = (.error e, u) →
       exec (.sourceBurstArrival n i k data) s = .next (settleAll n (accessFault n t.seq 2 e u))) ∧
     (∀ r, streamLive t = true → srcSpace t = 3 →
       s.hostReads.find? (fun r => r.ch == n.val && r.stream == i.toNat && r.seq == t.seq) = some r →
       exec (.sourceBurstArrival n i k data) s = .next (settleAll n (hostBytes r (data.take k.toNat) s))) ∧
     (streamLive t = true → srcSpace t = 2 → exec (.sourceBurstArrival n i k data) s =
       .next (settleAll n (streamBytesIn n i.toNat ((partBurst n i.toNat t s).take k.toNat) s))) ∧
     (streamLive t = false → exec (.sourceBurstArrival n i k data) s = .next s) ∧
     (∀ bs, streamLive t = true → bs ≠ [] → t.held.length + bs.length < 64 →
       streamAt (chOf (streamBytesIn n i.toNat bs s) n) i.toNat = { t with
         held := t.held ++ bs.take (t.length - arrivedBytes t), lastProgress := s.time, st := 1
         offset := streamOffset (chOf s n) i.toNat t }) ∧
     (t.st = 1 → arrivedBytes t < t.length → t.lastProgress.toNat + 1000 ≤ s.time.toNat →
       exec (.streamStall n i) s =
         .next (bump (66 + streamDie n t s) 2 1 (putStream n i.toNat { t with st := 2 } s))) ∧
     (s.time.toNat < t.lastProgress.toNat + 1000 → exec (.streamStall n i) s = .next s))

/-- R231, R237, R256, R265, R272: each time limit acts once it has passed and not before: the operation fails with
TIMEOUT and the code of its chapter (that a failure halts the chamber is JobFatalFaultsHaltTheChamber). WAIT 0x0B03,
KERNEL 0x0B04, EPOCH 0x0C01, the norm wait of an UPDATE 0x0D05, an ash record 0x0D06, a stalled stream 0x0B05. -/
def Obligations.TimeLimitsFailTheOperation : Prop :=
  ∀ (s : State) (n : Fin 32) (seq : W32) (o : Op),
    (executing s n seq [8] = some o →
      (o.start.toNat + waitTmo (chOf s n) o < s.time.toNat → exec (.waitTimeout n seq) s = .next (settleAll n
        (failOp n seq .timeout 0xB03 [] (opsFault 0xB03 seq.toNat (counterInfo (df o 0x10 2 % 4096))) s))) ∧
      (s.time.toNat ≤ o.start.toNat + waitTmo (chOf s n) o → exec (.waitTimeout n seq) s = .next s)) ∧
    (executing s n seq [3] = some o →
      (o.start.toNat + kernelTmo (chOf s n) o < s.time.toNat → exec (.kernelTimeout n seq) s = .next (settleAll n
        (failOp n seq .timeout 0xB04 [] (opsFault 0xB04 seq.toNat 0) s))) ∧
      (s.time.toNat ≤ o.start.toNat + kernelTmo (chOf s n) o → exec (.kernelTimeout n seq) s = .next s)) ∧
    (executing s n seq [9] = some o → o.begun = true →
      (o.start.toNat + 1000000 * df o 0x14 4 ≤ s.time.toNat → exec (.epochDrainTimeout n seq) s = .next (settleAll n
        (failOp n seq .timeout 0xC01 [] (pipFault 0xC01) s))) ∧
      (s.time.toNat < o.start.toNat + 1000000 * df o 0x14 4 → exec (.epochDrainTimeout n seq) s = .next s)) ∧
    (∀ t0, opOf (chOf s n) seq = some o → o.waitFrom = some t0 → opType o = 6 → o.state = .staged →
      normMet (chOf s n) o = false →
      let due := t0.toNat + 1000000 * max 1 (fld (creg s n 0x900) 15 0)
      (due ≤ s.time.toNat → exec (.updateNormTimeout n seq) s = .next (settleAll n
        (failOp n seq .timeout 0xD05 [] (optFault 0xD05 seq.toNat) s))) ∧
      (s.time.toNat < due → exec (.updateNormTimeout n seq) s = .next s)) ∧
    (∀ r l t0, (chOf s n).ash = r :: l → (chOf s n).ashFrom = some t0 → r.seq = seq →
      let due := t0.toNat + 1000000 * max 1 (fld (creg s n 0x900) 15 0)
      (due ≤ s.time.toNat → exec (.ashTimeout n seq) s = .next (settleAll n
        (failOp n seq .timeout 0xD06 [] (optFault 0xD06 seq.toNat) s))) ∧
      (s.time.toNat < due → exec (.ashTimeout n seq) s = .next s)) ∧
    (∀ i : BitVec 18, let t := streamAt (chOf s n) i.toNat
      streamLive t = true → arrivedBytes t < t.length →
      (t.lastProgress.toNat + 1000000 * t.tmo.toNat ≤ s.time.toNat → exec (.stallTimeout n i) s = .next (settleAll n
        (failOp n t.seq .timeout 0xB05 [] (opsFault 0xB05 t.seq.toNat i.toNat)
          (putStream n i.toNat { t with st := 4, held := [] } s)))) ∧
      (s.time.toNat < t.lastProgress.toNat + 1000000 * t.tmo.toNat → exec (.stallTimeout n i) s = .next s))

/-- R409: an operation that fails with a job-fatal code leaves the chamber HALTED: from IDLE or RUNNING it takes a
code (the failure's own, or 0x1103 where a record of the failure is a host request that cannot be issued), and the
chamber has no operation left that is not in RETIRING. -/
def Obligations.JobFatalFaultsHaltTheChamber : Prop :=
  ∀ (s : State) (n : Nat) (seq : W32) (st : Status) (code : Nat) (details : List Nat) (reg : Chamber → Chamber),
    n < 32 → (chOf s n).st = .running → code < 65536 →
    (∀ c, (reg c).st = c.st ∧ (reg c).ops = c.ops) →
    let t := failOp n seq st code details reg s
    (chOf t n).st = .halted ∧
    (creg t n 4 = BitVec.ofNat 32 (code * 65536) ∨ creg t n 4 = 0x11030000#32) ∧
    (∀ o ∈ (chOf t n).ops, o.state = .retiring)

/-- R119, R124, R127 to R130: a fault of a core that the compares of an executing MATMUL or CONV find poisons the
operation: the failing cores are recorded, it retires POISON and the chamber halts. Where the compares pass, where the
operation is under no compare (MODE 1, both checks off), where it has already combined, written or sent its results,
and where no such operation is in flight, nothing happens. A fault of an operation that a halt stopped no more than
1,030 ns ago is recorded only, once. Exact formats are compared as residues, and a right result of any group passes
whatever its values. (How a hardware fault is described to the model: log entry 45.) -/
def Obligations.CheckMismatchesPoisonTheOperation : Prop :=
  (∀ (s t : State) (n : Fin 32) (seq : W32) (o : Op) (faults : List CoreFault) (ts : List TileRes),
    opOf (chOf s n) seq = some o → (opType o = 1 ∨ opType o = 2) → entered o = true → openCompares (chOf s n) o = true →
    matCompute n o (linkedTo (chOf s n) o) s = (.ok (.ok ts), t) →
    (∀ f l, sortFails (verdicts o ts faults) = f :: l →
      let u := if o.begun = true then s else stopMatrix n o faults (f :: l) ts t
      exec (.checkMismatch n seq faults) s = .next (settleAll n (poison n ((opOf (chOf u n) seq).getD o) f l u))) ∧
    (sortFails (verdicts o ts faults) = [] → exec (.checkMismatch n seq faults) s = .next (settleAll n s))) ∧
  (∀ (s : State) (n : Fin 32) (seq : W32) (o : Op) (faults : List CoreFault), opOf (chOf s n) seq = some o →
    ((opType o ≠ 1 ∧ opType o ≠ 2) ∨ entered o = false ∨ openCompares (chOf s n) o = false) →
    exec (.checkMismatch n seq faults) s = .next s) ∧
  (∀ (o : Op) (ts : List TileRes) (faults : List CoreFault), unchecked o = true → verdicts o ts faults = []) ∧
  (∀ (s t : State) (n : Fin 32) (seq : W32) (o : Op) (faults : List CoreFault) (ts : List TileRes),
    opOf (chOf s n) seq = none → stoppedOp s n seq = some o → (opType o = 1 ∨ opType o = 2) → o.begun = false →
    matCompute n o false s = (.ok (.ok ts), t) →
    ∃ u, exec (.checkMismatch n seq faults) s = .next u ∧ stoppedOp u n seq = none ∧
      u = modCh n (fun c => { c with stopped := c.stopped.filter (fun q => q.seq != o.seq) })
        (recordFails n o.seq (sortFails (verdicts o ts faults)) s)) ∧
  (∀ (s : State) (n : Fin 32) (seq : W32) (faults : List CoreFault), opOf (chOf s n) seq = none →
    stoppedOp s n seq = none → exec (.checkMismatch n seq faults) s = .next s) ∧
  (∀ (rows : List (List ChkElt)) (b : List ChkElt) (n groups : Nat),
    (∀ r ∈ b :: rows, ∀ g, g < groups → ∀ i, i < n → (r.getD (g * n + i) (0, 0)).2 = groupScale r g n) →
    lanePass rows ((List.range (n * groups)).map (checkRow rows)) b n (n * groups)
      (fun l g => windowOf (rows.getD l []) b g n) 0 = true)

/-! ## Image, lantern, cluster tests and reports -/

/-- R37, R39, R40, R41: RELOAD with every defined chamber IDLE or HALTED loads the image anew and is refused
otherwise; the image in force is that of the selected slot where every check passes, and the factory image
otherwise. PROGRAM takes the staged image for a slot that is not selected, and its completion stores it in the slot
exactly when it passes. -/
def Obligations.ReloadAndProgramTheImage : Prop :=
  (∀ s : State, served s 0 →
    let c := countedG s 0x204
    (reloadReady s = true → exec .reload s =
      .next (eventG 0x202 [] (takeCapInit (takeTimePort (reloadShape (undefineAll (cbistStop c))))))) ∧
    (reloadReady s = false → exec .reload s = .next (gsetBit 0x200 3 c)) ∧
    (∀ slot : BitVec 2, s.prog = none → slot.toNat ≠ fld (flowAt s 0) 1 0 →
      exec (.program slot) s = .next { c with
        prog := some (slot.toNat, memRead s.staging 0 (fld (gget 0x214 s) 20 0)) }) ∧
    (∀ slot : BitVec 2, (s.prog.isSome = true ∨ slot.toNat = fld (flowAt s 0) 1 0) →
      exec (.program slot) s = .next (eventG 0x204 [slot.toNat, 7] (putProg 7 (gsetBit 0x200 3 c))))) ∧
  (∀ s : State,
    let bs := Tab.get [] (fld (flowAt s 0) 1 0) s.slots
    (loadImage s).img = (if loadCause s bs = 0 then imageOf bs else factoryImage (BitVec.ofNat 64 (gpair 0x2008 s))) ∧
    (loadImage s).imgDigest = (if loadCause s bs = 0 then imageDigest bs else Config.factoryDigest) ∧
    bit (gget 0x200 (loadImage s)) 1 = decide (loadCause s bs ≠ 0)) ∧
  (∀ (s : State) (slot : Nat) (bs : Bytes), s.prog = some (slot, bs) → exec .programComplete s =
    .next (if stagedFailed s bs = 0
      then eventG 0x204 [slot, 15] (putProg 15 { s with prog := none, slots := Tab.set [] slot bs s.slots })
      else eventG 0x204 [slot, stagedFailed s bs] (putProg (stagedFailed s bs) { s with prog := none }))) ∧
  (∀ s : State, s.prog = none → exec .programComplete s = .next s)

/-- R396, R399: ARM with LNT_TIME at least 10 µs ahead arms a snapshot and gives it the next id, otherwise it is
refused with event 0x1201; CANCEL takes an armed snapshot back to IDLE. From its time T on, each of the 188 banks
latches at its own edge: its 16 counters with the id and the time of the edge, which is T for a stopped bank and less
than 6 ns after T for a running one (that figure is the model's, log entry 46). A bank whose edge has not come keeps
its shadow, and the snapshot is DONE exactly when every edge has come. -/
def Obligations.LanternSnapshotsLatchAtTheirTime : Prop :=
  (∀ s : State, served s 0 →
    let c := countedG s 0x5000
    (now s + 10000 ≤ gpair 0x5008 s → s.lnt ≠ .latching → exec .arm s = .next { gmod 0x5010 (fun w => w + 1) c with
      lnt := .armed, lntTime := BitVec.ofNat 64 (gpair 0x5008 s) }) ∧
    ((gpair 0x5008 s < now s + 10000 ∨ s.lnt = .latching) →
      exec .arm s = .next (eventG 0x1201 [] (gsetBit 0x5004 2 c))) ∧
    (s.lnt = .armed → exec .lntCancel s = .next { gsetBit 0x5004 3 c with lnt := .idle }) ∧
    (s.lnt ≠ .armed → exec .lntCancel s = .next c)) ∧
  (∀ (s : State) (r : Latching),
    ((s.lnt = .armed ∧ s.lntTime.toNat ≤ now s ∧
        r = { target := s.lntTime, snapId := gget 0x5010 s, base := s.free, left := List.range 188 }) ∨
      (s.lnt = .latching ∧ s.latching = some r)) →
    ∃ t, exec .lanternLatch s = .next t ∧ sameMemory s t ∧
      (∀ b ∈ r.left, r.target.toNat + edgeAfter s r b ≤ now s → Tab.get {} b t.shadows =
        { counters := (List.range 16).map (fun i => Tab.get 0 (16 * b + i) s.banks), snapId := r.snapId, valid := true
          stopped := bankStopped s b, latch := r.target + BitVec.ofNat 64 (edgeAfter s r b) }) ∧
      (∀ b, (b ∉ r.left ∨ now s < r.target.toNat + edgeAfter s r b) → Tab.get {} b t.shadows = Tab.get {} b s.shadows) ∧
      (t.lnt = .done ↔ ∀ b ∈ r.left, r.target.toNat + edgeAfter s r b ≤ now s) ∧ (t.lnt = .done ∨ t.lnt = .latching)) ∧
  (∀ (s : State) (r : Latching) (b : Nat), edgeAfter s r b < 6 ∧ (bankStopped s b = true → edgeAfter s r b = 0)) ∧
  (∀ s : State, s.lnt ≠ .latching → (s.lnt = .armed → now s < s.lntTime.toNat) → exec .lanternLatch s = .next s)

/-- R328, R329, R312, R314, R333: a cluster test starts on a cluster of no chamber while none runs and some test is
chosen, and is refused otherwise; it overwrites the cluster's slices, which hold no error afterwards, and no other
cluster's. ABORT ends a running test. Its completion shows in FAILMASK those of the chosen tests that failed, with the
first failing core, and a failure raises 0x0F06; with UPDATE the failing bonds that the SHAFT test found in the cluster
are recorded. At the end of a hold-back window the corrections held back are reported; a base-die SRAM correction
within a window is counted and held back (log entry 50). An uncorrectable word of the base-die SRAM is module-fatal:
FATAL is set, and no chamber is IDLE or RUNNING any more. -/
def Obligations.TestsAndReportsEnd : Prop :=
  (∀ (s : State) (cluster : BitVec 6) (tests : BitVec 4) (update : Bool), served s 0 →
    let c := countedG s 0x2030
    ((chOfCluster s cluster.toNat).isNone = true → cbistState s ≠ 1 → tests ≠ 0 →
      ∃ t, exec (.cbistStart cluster tests update) s = .next t ∧
        gget 0x2034 t = BitVec.ofNat 32 (1 + cluster.toNat * 2 ^ 16 + (gget 0x2034 s).toNat / 2 ^ 23 % 2 * 2 ^ 23) ∧
        t.cbistUpdate = update ∧ t.cbistTests = tests.toNat ∧
        (∀ w, w / 0x800000 = cluster.toNat → Tab.get 0 w t.galErr = 0) ∧
        (∀ w, w / 0x800000 ≠ cluster.toNat → Tab.get 0 w t.galErr = Tab.get 0 w s.galErr ∧
          Tab.get false w t.galValid = Tab.get false w s.galValid) ∧
        (∀ k, k / 0x400000 ≠ cluster.toNat → Tab.get 0 k t.core = Tab.get 0 k s.core) ∧ t.bulk = s.bulk) ∧
    (((chOfCluster s cluster.toNat).isSome = true ∨ cbistState s = 1 ∨ tests = 0) →
      exec (.cbistStart cluster tests update) s = .next (gsetBit 0x2034 23 c)) ∧
    (cbistState s = 1 → exec .cbistAbort s = .next (gmod 0x2034 (fun w => setFld w 1 0 3) c)) ∧
    (cbistState s ≠ 1 → exec .cbistAbort s = .next c)) ∧
  (∀ (s : State) (failmask first : BitVec 4) (bonds : List BondFail),
    let mask := failmask &&& BitVec.ofNat 4 s.cbistTests
    let ended := fun (k : Nat) => gmod 0x2034 (fun w => setFld (setFld (setFld w 1 0 2) 5 2 mask.toNat) 15 6 k) s
    let core := 16 * fld (gget 0x2034 s) 21 16 + first.toNat
    let own := bonds.filter (fun b => b.core.val / 16 == fld (gget 0x2034 s) 21 16)
    (cbistState s = 1 → mask = 0 → exec (.cbistComplete failmask first bonds) s = .next (ended 0)) ∧
    (cbistState s = 1 → mask ≠ 0 → (s.cbistUpdate = false ∨ mask.getLsbD 3 = false) →
      exec (.cbistComplete failmask first bonds) s = .next (eventG 0xF06 [] (ended core))) ∧
    (cbistState s = 1 → s.cbistUpdate = true → mask.getLsbD 3 = true →
      exec (.cbistComplete failmask first bonds) s = .next (eventG 0xF06 [] (cbistRecord own (ended core)))) ∧
    (cbistState s ≠ 1 → exec (.cbistComplete failmask first bonds) s = .next s)) ∧
  (∀ (s : State) (n : Fin 32), windowEnded (chOf s n).ecc s.time = true → exec (.correctionReport (.chamber n)) s =
    .next (event n 0xF01 0 [(chOf s n).ecc.held] (setCh n { chOf s n with ecc := { last := some s.time, held := 0 } } s))) ∧
  (∀ s : State, windowEnded s.nochEcc s.time = true → exec (.correctionReport .module) s =
    .next (eventG 0xF01 [s.nochEcc.held] { s with nochEcc := { last := some s.time, held := 0 } })) ∧
  (∀ s : State, (windowEnded s.sramEcc s.time = true → exec .sramCorrectionReport s =
      .next (eventG 0xF0A [s.sramEcc.held] { s with sramEcc := { last := some s.time, held := 0 } })) ∧
    (∀ l, s.sramEcc.last = some l → s.time.toNat < l.toNat + 1000000 → exec .sramCorrectionReport s =
      .next (gcount 0x2010 1 { s with sramEcc := { s.sramEcc with held := s.sramEcc.held + 1 } })) ∧
    ((s.sramEcc.last = none ∨ ∃ l, s.sramEcc.last = some l ∧ l.toNat + 1000000 ≤ s.time.toNat ∧ s.sramEcc.held = 0) → exec .sramCorrectionReport s =
      .next (eventG 0xF0A [s.sramEcc.held + 1] (gcount 0x2010 1 { s with sramEcc := { last := some s.time, held := 0 } })))) ∧
  (∀ s : State, ∃ t, exec .sramUncorrectable s = .next t ∧ isFatal t = true ∧
    (isFatal s = false → gget 0x2000 t = 0x0F090001#32) ∧ ∀ n, n < 32 → isIdle t n = false ∧ isRunning t n = false)

/-! ## The link -/

/-- R283, R285 to R287, R298, R299, R28 to R30: flits of an ACTIVE port. A codeword with up to 15 symbols in error is
corrected, and a flit with bits in one that has more is discarded. A DATA flit that passes its checks and is next in
order is accepted, any other is answered with a NAK; an IDLE flit gives its ACK, NAK and credits; a TIME flit gives
its times to the port, and on the time input port a measurement; a flit of another FTYPE than its command names does
nothing more (log entry 1). TIME_FLIT_SEND sends module time once it is due, and then what waited. A port that is not
ACTIVE takes no such flit. A measured offset loads the counter before the first chamber exists (backward once),
steps it forward beyond 10 µs, slews it beyond 50 ns, and otherwise leaves it; after 100 ms without a time message the
time input is lost, until an offset within 50 ns. -/
def Obligations.FlitsAreTakenInOrder : Prop :=
  (∀ (s : State) (p : Fin 24) (flit : Bytes) (errs : List CwErr), flit.length = 256 → (portOf s p).st = .active →
    let w := takeWords p errs s
    let q := heedHeader p flit w.2
    let ok := w.1 = false ∧ crcOk flit = true
    (ok → at_ flit 0 1 % 4 = 1 → at_ flit 2 2 % 4096 = expected (portOf q p) →
      exec (.dataFlit p flit errs) s = .next (answerFlit p (acceptFlit p flit q))) ∧
    (ok → at_ flit 0 1 % 4 = 1 → at_ flit 2 2 % 4096 ≠ expected (portOf q p) →
      exec (.dataFlit p flit errs) s = .next (answerFlit p (modPort p (fun r => { r with nak := true }) q))) ∧
    (¬ ok → exec (.dataFlit p flit errs) s = .next (answerFlit p (modPort p (fun r => { r with nak := true }) w.2)) ∧
      exec (.idleFlit p flit errs) s = .next w.2 ∧ exec (.timeFlit p flit errs) s = .next w.2) ∧
    (ok → at_ flit 0 1 % 4 = 0 → exec (.idleFlit p flit errs) s = .next (pump p 2048 q)) ∧
    (ok → at_ flit 0 1 % 4 = 2 →
      let u := bump (132 + p) 11 1 (modPort p (fun r => { r with
        lastTx := BitVec.ofNat 64 (at_ flit 10 8), lastRx := s.time, peerStratum := BitVec.ofNat 8 (at_ flit 35 1) }) q)
      (s.img.timePort ≠ p → exec (.timeFlit p flit errs) s = .next (pump p 2048 u)) ∧
      (s.img.timePort = p → exec (.timeFlit p flit errs) s = .next (pump p 2048 (timeMessage flit u)))) ∧
    (ok → at_ flit 0 1 % 4 ≠ 1 → exec (.dataFlit p flit errs) s = .next w.2) ∧
    (ok → at_ flit 0 1 % 4 ≠ 0 → exec (.idleFlit p flit errs) s = .next w.2) ∧
    (ok → at_ flit 0 1 % 4 ≠ 2 → exec (.timeFlit p flit errs) s = .next w.2)) ∧
  (∀ (s : State) (p : Fin 24) (errs : List CwErr),
    ((portOf s p).rxBad = false → (∀ e ∈ errs, e.symbols.toNat ≤ 15) → (takeWords p errs s).1 = false) ∧
    (∀ e l, errs = e :: l → (portOf s p).rxBit = 0 → 15 < e.symbols.toNat → (takeWords p errs s).1 = true)) ∧
  (∀ (s : State) (p : Fin 24) (flit : Bytes) (errs : List CwErr), flit.length = 256 → (portOf s p).st ≠ .active →
    exec (.dataFlit p flit errs) s = .next s ∧ exec (.idleFlit p flit errs) s = .next s ∧
    exec (.timeFlit p flit errs) s = .next s) ∧
  (∀ (s : State) (p : Fin 24), (portOf s p).st = .active → (portOf s p).nextTime.toNat ≤ now s →
    ∃ f q, exec (.timeFlitSend p) s = .next (pump p 2048 (sendFlit p f (setPort p q s))) ∧
      f.length = 256 ∧ crcOk f = true ∧ at_ f 0 1 % 4 = 2 ∧ slice f 10 8 = natLe 8 (now s) ∧
      slice f 18 8 = natLe 8 (portOf s p).lastTx.toNat ∧ slice f 26 8 = natLe 8 (portOf s p).lastRx.toNat ∧
      q.nextTime = BitVec.ofNat 64 (now s + 10000) ∧ q.st = .active ∧ q.queues = (portOf s p).queues) ∧
  (∀ (s : State) (p : Fin 24), ((portOf s p).st ≠ .active ∨ now s < (portOf s p).nextTime.toNat) →
    exec (.timeFlitSend p) s = .next s) ∧
  (∀ s : State,
    (isReference s = false → s.mtb.silent = false → s.mtb.lastMsg.toNat + 100000000 ≤ now s →
      exec .timeInputLost s = .next (let u := gsetBit 0x108 3 (setLocked false s)
        eventG 0x401 [] { u with mtb := { u.mtb with silent := true, lost := true, slew := 0 } })) ∧
    ((isReference s = true ∨ s.mtb.silent = true ∨ now s < s.mtb.lastMsg.toNat + 100000000) →
      exec .timeInputLost s = .next s)) ∧
  (∀ (s : State) (o : Int),
    let t := correctTime o s
    gget 0x10C t = offsetReg o ∧ bit (gget 0x108 t) 0 = decide (-50 ≤ o ∧ o ≤ 50) ∧
    (t.mtb.lost = true ↔ s.mtb.lost = true ∧ ¬ (-50 ≤ o ∧ o ≤ 50)) ∧
    (s.mtb.created = false → (o ≤ 0 ∨ s.mtb.backDone = false) →
      t.time = BitVec.ofInt 64 ((now s : Int) - o) ∧ t.mtb.slew = 0 ∧ (0 < o → t.mtb.backDone = true)) ∧
    ((s.mtb.created = true ∨ (0 < o ∧ s.mtb.backDone = true)) →
      (o < -10000 → t.time = BitVec.ofInt 64 ((now s : Int) - o) ∧ t.mtb.slew = 0 ∧ bit (gget 0x108 t) 2 = true) ∧
      (-10000 ≤ o → t.time = s.time ∧
        t.mtb.slew = if -50 ≤ o ∧ o ≤ 50 then 0 else if o < 0 then 1 else 2)))

/-- R283, R286, R301 to R304, R333, Table LNK-10: five uncorrectable codewords within 1 µs, a lost lane and a flit
resent sixteen times take an ACTIVE port to RECOVERY with a fast training; a TRAIN flit and LNK_PCTL.RETRAIN start a
training; the second failed fast training of a RECOVERY is followed by a full one, another failed fast training by a
fast one, and a failed full training leads to DOWN with a retry after 1 s. A training that completes leaves the port
ACTIVE with its peer noted, and sends the peer this module's LINK_ID and the last SEQ taken. Under a module-fatal
fault ports stay in their states. CLR clears the port's counters. -/
def Obligations.PortsTrainAndRecover : Prop :=
  (∀ (s : State) (p : Fin 24),
    let q := portOf s p
    let recover := fun (u : State) => startTraining p .recovery .recovery false 0 u
    let burst := q.bad.length = 5 ∧ (q.bad.headD 0).toNat ≤ (q.bad.getLastD 0).toNat + 1000
    let limit := ∃ f ∈ q.replay, 16 ≤ f.resends
    (q.st = .active → isFatal s = false →
      (burst → exec (.codewordErrorBurst p) s = .next (recover (modPort p (fun r => { r with bad := [] }) s))) ∧
      exec (.laneLockLoss p) s = .next (recover s) ∧
      (limit → exec (.replayLimit p) s = .next (recover (modPort p (fun r => { r with
        replay := r.replay.map (fun f => { f with resends := 0 }) }) s)))) ∧
    (¬ burst → exec (.codewordErrorBurst p) s = .next s) ∧ (¬ limit → exec (.replayLimit p) s = .next s) ∧
    ((q.st ≠ .active ∨ isFatal s = true) → exec (.laneLockLoss p) s = .next s ∧
      ∃ t, exec (.codewordErrorBurst p) s = .next t ∧ (portOf t p).st = q.st) ∧
    (q.st = .down → q.enabled = true → isFatal s = false → q.nextTime.toNat ≤ now s →
      exec (.downRetry p) s = .next (startTraining p .training .down true 0 s)) ∧
    ((q.st ≠ .down ∨ q.enabled = false ∨ isFatal s = true ∨ now s < q.nextTime.toNat) →
      exec (.downRetry p) s = .next s) ∧
    (isTraining q s = true →
      (q.full = true → exec (.trainingFailed p) s = .next (eventG 0xE04 [] (setPort p { q with
        st := .down, failed := 0, nextTime := BitVec.ofNat 64 (now s + 1000000000) } s))) ∧
      (q.full = false → exec (.trainingFailed p) s = .next (startTraining p q.st q.cause
        (decide (q.cause = .recovery ∧ 1 ≤ q.failed)) (q.failed + 1) s)) ∧
      ∀ r : TrainResult, ∃ t, exec (.trainingComplete p r) s = .next t ∧ (portOf t p).st = .active ∧
        (portOf t p).peerModule = r.module ∧ (portOf t p).peerPort = r.port ∧ (portOf t p).peerLink = some r.linkId ∧
        (portOf t p).ownLink = s.linkId ∧ .trainEnd p s.linkId s.img.moduleId (reportedAck q) ∈ t.out ∧ sameMemory s t) ∧
    (isTraining q s = false → exec (.trainingFailed p) s = .next s ∧
      ∀ r, exec (.trainingComplete p r) s = .next s)) ∧
  (∀ (s : State) (p : Fin 24) (flit : Bytes) (errs : List CwErr), flit.length = 256 →
    let w := takeWords p errs s
    let t := takeHeader p flit w.2
    let q := portOf t p
    ((portOf s p).st = .disabled → exec (.trainFlit p flit errs) s = .next s) ∧
    ((portOf s p).st ≠ .disabled → (w.1 = true ∨ crcOk flit = false ∨ at_ flit 0 1 % 4 ≠ 3) →
      exec (.trainFlit p flit errs) s = .next w.2) ∧
    ((portOf s p).st ≠ .disabled → w.1 = false → crcOk flit = true → at_ flit 0 1 % 4 = 3 → q.st = (portOf s p).st ∧
      ((isFatal t = true ∨ q.st = .training ∨ (q.st = .down ∧ q.enabled = false)) →
        exec (.trainFlit p flit errs) s = .next t) ∧
      (isFatal t = false →
        (q.st = .active → exec (.trainFlit p flit errs) s = .next (startTraining p .training .peer false 0 t)) ∧
        (q.st = .recovery →
          exec (.trainFlit p flit errs) s = .next (startTraining p .training .recovery q.full q.failed t)) ∧
        (q.st = .down → q.enabled = true →
          exec (.trainFlit p flit errs) s = .next (startTraining p .training .down true 0 t))))) ∧
  (∀ (s : State) (p : Nat) (st : PortState) (cause : TrainCause) (full : Bool) (failed : Nat),
    let t := startTraining p st cause full failed s
    (portOf t p).st = st ∧ (portOf t p).full = full ∧ (portOf t p).failed = failed ∧ .train p full ∈ t.out ∧
    (∀ k, k ≠ p → portOf t k = portOf s k) ∧ sameMemory s t) ∧
  (∀ (s : State) (p : Fin 24) (full : Bool), served s 0 →
    let c := countedG s (0x1100 + 0x40 * p.val)
    (((portOf s p).st = .active ∨ (portOf s p).st = .recovery) →
      exec (.retrain p full) s = .next (startTraining p .training .retrain full 0 c)) ∧
    ((portOf s p).st = .down → exec (.retrain p full) s = .next (startTraining p .training .down true 0 c)) ∧
    (((portOf s p).st = .disabled ∨ (portOf s p).st = .training) → exec (.retrain p full) s = .next c) ∧
    (∃ t, exec (.clr p) s = .next t ∧
      (∀ o ∈ [0x08, 0x0C, 0x10, 0x14, 0x20, 0x24, 0x28, 0x2C, 0x30], gget (portReg p o) t = 0) ∧
      fld (gget (portReg p 0x18) t) 15 0 = 0 ∧ fld (gget (portReg p 0x18) t) 31 16 = fld (gget (portReg p 0x18) s) 31 16 ∧
      { t with g := s.g, banks := s.banks } = s))

/-! ## Remote memory -/

/-- R196, R198, R204, R230, R288: the owner's side. The oldest packet of its type that has arrived is taken, while the
response queue has room for its answer. A chamber that is neither IDLE nor RUNNING answers NOT_READY. Otherwise a READ
is answered with its line, a STORE and an ATOMIC are performed and acknowledged OK (an ATOMIC with the old value), a
SIGNAL changes its counter, a REDUCE of another epoch is STALE and halts the chamber, and one of the epoch in force is
combined, owner value first, into every word that its mask touches; an access that faults is answered FAULT. R196,
R204, R210, R256: the sender's side. READ_DATA and ACK with STATUS OK free their request and complete what waited for
it; any other status fails the operation (an EPOCH is cancelled by the halt); an answer to a request of before the
last CLEARING is discarded, and one to a request that was given up only frees it. A request whose deadline has passed
fails its operation with 0x0A03, and before its deadline nothing happens. -/
def Obligations.RemoteAccessesAreServedAndAnswered : Prop :=
  ((∀ (s t : State) (p : Packet), takeArrived 1 s = some (p, t) → answerRoom s p = true →
     (ready t p = false → exec .read s = .next (refuseWith p .notReady t)) ∧
     (∀ bs u, ready t p = true → ownerLoad p.dstCh (pktOspace p) (pktAddr p % 2 ^ 48 / 256 * 256) 256 t = (.ok bs, u) →
       exec .read s = .next (inject (answer u p 8 (tagStatus (pktTag p) 0 ++ natLe 4 0 ++ bs)) u)) ∧
     (∀ e u, ready t p = true → ownerLoad p.dstCh (pktOspace p) (pktAddr p % 2 ^ 48 / 256 * 256) 256 t = (.error e, u) →
       exec .read s = .next (refuseFault p e u))) ∧
   (∀ (s t : State) (p : Packet), takeArrived 2 s = some (p, t) → answerRoom s p = true →
     (ready t p = false → exec .store s = .next (refuseWith p .notReady t)) ∧
     (∀ u, ready t p = true → ownerStore p.dstCh (pktOspace p) (pktAddr p % 2 ^ 48) (p.body.drop 12) t = (.ok (), u) →
       exec .store s = .next (acknowledge p 0 0 u)) ∧
     (∀ e u, ready t p = true → ownerStore p.dstCh (pktOspace p) (pktAddr p % 2 ^ 48) (p.body.drop 12) t = (.error e, u) →
       exec .store s = .next (refuseFault p e u))) ∧
   (∀ (s t : State) (p : Packet), takeArrived 3 s = some (p, t) → answerRoom s p = true →
     let legal := pktFunc p ≤ 5 ∧ pktAddr p % 2 ^ 48 % atomWidth (pktFunc p) = 0
     let made := atomAt p.dstCh (agent 6) (if pktOspace p = 1 then 1 else 2) (pktAddr p % 2 ^ 48) (pktFunc p) (at_ p.body 16 8)
       (at_ p.body 24 8) t
     (ready t p = false → exec .atomic s = .next (refuseWith p .notReady t)) ∧
     (ready t p = true → ¬ legal → exec .atomic s = .next (refuseWith p .fault t)) ∧
     (∀ old u, ready t p = true → legal → made = (.ok old, u) →
       exec .atomic s = .next (acknowledge p 0 (BitVec.ofNat 64 old) u)) ∧
     (∀ e u, ready t p = true → legal → made = (.error e, u) → exec .atomic s = .next (refuseFault p e u))) ∧
   (∀ (s t : State) (p : Packet), takeArrived 4 s = some (p, t) → answerRoom s p = true →
     (ready t p = false → exec .signalPacket s = .next (refuseWith p .notReady t)) ∧
     (ready t p = true → 4095 < at_ p.body 4 2 → exec .signalPacket s = .next (refuseWith p .fault t)) ∧
     (ready t p = true → at_ p.body 4 2 ≤ 4095 →
       exec .signalPacket s = .next (acknowledge p 0 0 (noteWaits p.dstCh (changeCounter p.dstCh (at_ p.body 4 2)
         (if at_ p.body 6 1 = 1 then BitVec.ofNat 32 (at_ p.body 8 4)
          else counterOf (chOf t p.dstCh) (at_ p.body 4 2) + BitVec.ofNat 32 (at_ p.body 8 4)) t))))) ∧
   (∀ (s t : State) (p : Packet), takeArrived 0x10 s = some (p, t) → answerRoom s p = true →
     let la := pktAddr p % 2 ^ 48 / 256 * 256
     let current := redEpoch p = fld (creg t p.dstCh 0x808) 15 0
     (ready t p = false → exec .reducePacket s = .next (refuseWith p .notReady t)) ∧
     (ready t p = true → ¬ current → exec .reducePacket s = .next (refuseWith p .stale t) ∧
       (isRunning t p.dstCh = true → (chOf (refuseAccess p .stale t) p.dstCh).st = .halted)) ∧
     (∀ v olds u, ready t p = true → current →
       ((pktOspace p = 1 ∧ la + 256 ≤ winSize t (chOf t p.dstCh) ∧ v = t) ∨
        (pktOspace p ≠ 1 ∧ allWritable p.dstCh la 256 t = (.ok (), v))) →
       maskedLoad p.dstCh (pktOspace p) la (maskedWords (if pktOspace p = 1 then 32 else 64) (redMask p)) v = (.ok olds, u) →
       exec .reducePacket s = .next (acknowledge p 0 0 (olds.foldl (fun x (w : Nat × Bytes) =>
         (ownerStore p.dstCh (pktOspace p) (la + w.1) (combineWord (redFunc p) (redMask p) (redData p) w.1 w.2) x).2) u)))) ∧
   (∀ (s : State) (c : Nat × Instr),
     c ∈ [(1, Instr.read), (2, Instr.store), (3, Instr.atomic), (4, Instr.signalPacket), (0x10, Instr.reducePacket)] →
     (takeArrived c.1 s = none → exec c.2 s = .next s) ∧
     (∀ p t, takeArrived c.1 s = some (p, t) → answerRoom s p = false → exec c.2 s = .next s))) ∧
  ((∀ (s t : State) (p : Packet) (r : Req), takeArrived 8 s = some (p, t) →
     (chOf t p.dstCh).oldTags.contains (pktTag p) = false → reqOf (chOf t p.dstCh) (pktTag p) = some r →
     let u := modCh p.dstCh (dropReq r) t
     (r.late = true → exec .readData s = .next (afterReq p.dstCh u)) ∧
     (r.late = false → pktStatus p = 0 → exec .readData s =
       .next (afterReq p.dstCh (lineReturned p.dstCh r (p.body.drop 8) u))) ∧
     (r.late = false → pktStatus p ≠ 0 → exec .readData s =
       .next (afterReq p.dstCh (requestFailed p.dstCh r (pktStatus p) u)))) ∧
   (∀ (s t : State) (p : Packet) (r : Req), takeArrived 9 s = some (p, t) →
     (chOf t p.dstCh).oldTags.contains (pktTag p) = false → reqOf (chOf t p.dstCh) (pktTag p) = some r →
     let u := modCh p.dstCh (dropReq r) (bump (66 + leaderDie (chOf t p.dstCh)) 8 1 t)
     (r.late = true → exec .ack s = .next (afterReq p.dstCh u)) ∧
     (r.late = false → pktStatus p = 0 → exec .ack s =
       .next (afterReq p.dstCh (acked p.dstCh r (BitVec.ofNat 64 (at_ p.body 8 8)) u))) ∧
     (r.late = false → pktStatus p ≠ 0 → exec .ack s =
       .next (afterReq p.dstCh (requestFailed p.dstCh r (pktStatus p) u)))) ∧
   (∀ (s t : State) (p : Packet), takeArrived 8 s = some (p, t) → (chOf t p.dstCh).oldTags.contains (pktTag p) = true →
     exec .readData s = .next (oldAnswer p.dstCh (pktTag p) t)) ∧
   (∀ (s t : State) (p : Packet), takeArrived 9 s = some (p, t) → (chOf t p.dstCh).oldTags.contains (pktTag p) = true →
     exec .ack s = .next (oldAnswer p.dstCh (pktTag p) (bump (66 + leaderDie (chOf t p.dstCh)) 8 1 t))) ∧
   (∀ s : State, (takeArrived 8 s = none → exec .readData s = .next s) ∧ (takeArrived 9 s = none → exec .ack s = .next s)) ∧
   (∀ (s : State) (n : Fin 32) (tag : BitVec 20) (r : Req), reqOf (chOf s n) tag.toNat = some r → r.sent = true →
     r.late = false →
     (r.deadline.toNat ≤ now s → exec (.ackDeadline n tag) s = .next (settleAll n (echoFail n r 0xA03
       (modCh n (fun c => { c with reqs := c.reqs.map (fun q => if q.tag = r.tag then { q with late := true } else q) })
         s)))) ∧
     (now s < r.deadline.toNat → exec (.ackDeadline n tag) s = .next s)) ∧
   (∀ (s : State) (n code : Nat) (r : Req),
     let reg := echFault code r.seq.toNat r.addr.toNat 0
     ((∀ o, opOf (chOf s n) r.seq = some o → opType o ≠ 9) → echoFail n r code s = failOp n r.seq .fault code [] reg s) ∧
     (∀ o, opOf (chOf s n) r.seq = some o → opType o = 9 →
       echoFail n r code s = haltCh n code (event n code r.seq.toNat [] (modCh n reg s)))))

/-! ## Power -/

/-- R300, R356, R358, R359: the cap. A GRANT of the coordinator that is newer takes effect at its time, one from
another module is dropped; a PWR_GRANT write is ignored with event 0x1009 where a coordinator governs the cap; a cap
is limited to CAP_MAX. A SLACK is kept by the coordinator and dropped by others; at each multiple of 100 µs a module
sends its own, and the coordinator keeps its own; the coordinator's period shares TOTAL among those that have
reported, and does nothing with TOTAL = 0. -/
def Obligations.GrantsMoveTheCap : Prop :=
  (∀ (s t : State) (p : Packet), takeArrived 0x19 s = some (p, t) →
    let seq := BitVec.ofNat 32 (at_ p.body 0 4)
    let cap := at_ p.body 4 2
    let at0 := at_ p.body 8 8
    (t.img.coord ≠ some p.srcMod → exec .grant s = .next (eventG 0xE07 [] (gcount 0x100C 1 t))) ∧
    (t.img.coord = some p.srcMod → 1 ≤ (seq - gget 0x1014 t).toNat → (seq - gget 0x1014 t).toNat < 2 ^ 31 →
      (at0 ≤ now t → ∃ v, exec .grant s = .next v ∧ capOf v = min cap (capMax t) ∧ v.power.capFromGrant = true ∧
        v.power.pending = none ∧ gget 0x1014 v = seq) ∧
      (now t < at0 → ∃ v, exec .grant s = .next v ∧ capOf v = capOf t ∧
        v.power.pending = some (cap, BitVec.ofNat 64 at0) ∧ gget 0x1014 v = seq)) ∧
    (t.img.coord = some p.srcMod → ((seq - gget 0x1014 t).toNat = 0 ∨ 2 ^ 31 ≤ (seq - gget 0x1014 t).toNat) →
      exec .grant s = .next t)) ∧
  (∀ (s : State) (cap : Nat) (at0 : W64), s.power.pending = some (cap, at0) →
    (at0.toNat ≤ now s → ∃ v, exec .grantApply s = .next v ∧ capOf v = min cap (capMax s) ∧ v.power.pending = none) ∧
    (now s < at0.toNat → exec .grantApply s = .next s)) ∧
  (∀ (s : State) (v : W32), served s 0 →
    (s.img.coord.isSome = true → exec (.pwrGrantWrite v) s = .next (eventG 0x1009 [] (countedG s 0x300C))) ∧
    (s.img.coord = none → ∃ t, exec (.pwrGrantWrite v) s = .next t ∧ capOf t = min (fld v 10 0) (capMax s) ∧
      gget 0x300C t = v &&& 0x7FF#32 ∧ t.power.capFromGrant = false ∧ t.power.pending = none)) ∧
  (∀ (s t : State) (p : Packet), takeArrived 0x18 s = some (p, t) →
    (isCoord t = true → exec .slack s = .next { t with coord := { t.coord with
      reports := Tab.set none p.srcMod (some ⟨t.time, bodySlack p.body⟩) t.coord.reports } }) ∧
    (isCoord t = false → exec .slack s = .next (eventG 0xE07 [] (gcount 0x100C 1 t)))) ∧
  (∀ s : State, (takeArrived 0x18 s = none → exec .slack s = .next s) ∧ (takeArrived 0x19 s = none → exec .grant s = .next s) ∧
    (s.power.pending = none → exec .grantApply s = .next s)) ∧
  (∀ s : State, s.coord.lastSlack.toNat / 100000 < now s / 100000 →
    let u := forAll allCh takeSlack { s with coord := { s.coord with lastSlack := s.time } }
    (s.img.coord = none → exec .slackSend s = .next u) ∧
    (∀ m, s.img.coord = some m → m ≠ s.img.moduleId →
      let v := { u with coord := { u.coord with slackNo := u.coord.slackNo + 1 } }
      exec .slackSend s = .next (inject { ptype := 0x18, hops := 0, dstMod := m, dstCh := 0, srcMod := s.img.moduleId,
                                          srcCh := 0, body := slackBody v v.coord.slackNo } v)) ∧
    (isCoord s = true → exec .slackSend s = .next { u with coord := { u.coord with
      reports := Tab.set none s.img.moduleId (some ⟨s.time, leastSlack ((slackEntries u).map (fun e => e.2.2))⟩)
        u.coord.reports } })) ∧
  (∀ s : State, now s / 100000 ≤ s.coord.lastSlack.toNat / 100000 → exec .slackSend s = .next s) ∧
  (∀ s : State, (isReady s = false ∨ isCoord s = false ∨ now s < s.coord.nextPeriod.toNat) →
    exec .coordinatorPeriod s = .next s) ∧
  (∀ s : State, isReady s = true → isCoord s = true → s.coord.nextPeriod.toNat ≤ now s →
    let u := { s with coord := { s.coord with
      nextPeriod := BitVec.ofNat 64 (now s + 1000000 * max 1 (fld (gget 0x301C s) 7 0)) } }
    (fld (gget 0x3018 s) 15 0 = 0 → exec .coordinatorPeriod s = .next u) ∧
    (fld (gget 0x3018 s) 15 0 ≠ 0 → exec .coordinatorPeriod s =
      .next (forAll (reporters u) (giveGrant (totalLeft u (reporters u)) ((reporters u).map (·.2)).sum) u)))

/-- R337, R339, R385: what a request for a power state does. In Ready it starts the power-down, in Standby the power-up
(but not during a trip's hold-off, where it is counted as refused), in Off with input power the start-up; during a
sequence it is latched with event 0x1002. PWR_CMD acts in Ready only, and is ignored with event 0x1009 elsewhere. The
recovery responder, which runs alone while neither firmware copy has passed, serves no PLDM request. -/
def Obligations.PowerRequestsStartSequences : Prop :=
  (∀ s : State, s.power.phase = .ready →
    let down := fun (t : Target) (u : State) => { u with power := { u.power with phase := .pd 1, target := t, short := false } }
    exec .pldmStandby s = .next (down .standby s) ∧ exec .pldmOff s = .next (down .off s) ∧
    exec .enFall s = .next (down .off { s with power := { s.power with en := false } }) ∧
    exec .pldmOn s = .next s ∧
    (served s 0 → exec .pwrCmdStandby s = .next (down .standby (countedG s 0x3004)) ∧
      exec .pwrCmdOff s = .next (down .off (countedG s 0x3004)))) ∧
  (∀ s : State, isReady s = false → served s 0 →
    exec .pwrCmdStandby s = .next (eventG 0x1009 [] (countedG s 0x3004)) ∧
    exec .pwrCmdOff s = .next (eventG 0x1009 [] (countedG s 0x3004))) ∧
  (∀ s : State, s.power.phase = .standby →
    exec .pldmStandby s = .next s ∧
    (s.firmware.booted ≠ 0 →
      exec .pldmOff s = .next { s with power := { s.power with phase := .toOff, target := .off } }) ∧
    (s.firmware.booted = 0 → exec .pldmOff s = .next s ∧ exec .pldmOn s = .next s) ∧
    (s.power.holdoff = false → s.firmware.booted ≠ 0 →
      exec .pldmOn s = .next { s with power := { s.power with
        phase := .pu 1, target := .on, keepHalted := false, short := false } } ∧
      exec .enRise s = .next { s with power := { s.power with
        en := true, phase := .pu 1, target := .on, keepHalted := false, short := false } }) ∧
    (s.power.holdoff = true → s.firmware.booted ≠ 0 → s.power.refusedOn ≠ 255 →
      exec .pldmOn s = .next { s with power := { s.power with refusedOn := s.power.refusedOn + 1 } })) ∧
  (∀ s : State, s.power.phase = .off →
    exec .pldmOff s = .next s ∧
    (s.power.input = true → exec .pldmOn s = .next { s with
      time := 0, power := { s.power with phase := .startUp, target := .on, trimAt := [] } })) ∧
  (∀ (s : State) (k : Nat), (s.power.phase = .pu k ∨ s.power.phase = .pd k) →
    let keep := fun (t : Target) => { s with power := { s.power with latched := some t } }
    exec .pldmOn s = .next (eventG 0x1002 [] (keep .on)) ∧ exec .pldmStandby s = .next (eventG 0x1002 [] (keep .standby)) ∧
    exec .pldmOff s = .next (eventG 0x1002 [] (keep .off)))

/-- R338, Tables PWR-2 to PWR-4: each phase of a power-up whose target stays ON leads to the next, the last to
Ready, and each phase of a power-down whose target stays STANDBY to the next, the last to Standby; a phase's command
does nothing in any other phase. PU1 leaves every chamber undefined and keeps flowstone and the time, PU2 sets die
0's guard from its monitors (R353), PD1 leaves no chamber IDLE or RUNNING, PD2 every port DISABLED, PD3 every
chamber undefined and every gallery word invalid. -/
def Obligations.PowerSequencesFollowTheirPhases : Prop :=
  (∀ s : State, s.power.latched = none → s.power.target = .on →
    (s.power.phase = .pu 1 → ∃ t, exec .pu1 s = .next t ∧ t.power.phase = .pu 2 ∧ t.time = s.time ∧ t.flow = s.flow ∧
      (∀ n, (chOf t n).st = .undefined)) ∧
    (∀ margins, s.power.phase = .pu 2 → ∃ t, exec (.pu2 margins) s = .next t ∧ t.power.phase = .pu 3 ∧
      Tab.get 0 0 t.power.guard = dieGuard s margins 0 ∧ t.clusters = []) ∧
    (∀ test, s.power.phase = .pu 3 → ∃ t, exec (.pu3 test) s = .next t ∧ t.power.phase = .pu 4) ∧
    (s.power.phase = .pu 4 → (∀ p, p < 24 → isTraining (portOf s p) s = false) →
      (s.power.keepHalted = false → exec .pu4 s = .next { s with power := { s.power with phase := .pu 5 } }) ∧
      (s.power.keepHalted = true → exec .pu4 s = .next (enterReady s))) ∧
    (s.power.phase = .pu 5 → ∃ t, exec .pu5 s = .next t ∧ t.power.phase = .pu 6) ∧
    (s.power.phase = .pu 6 → ∃ t, exec .pu6 s = .next t ∧ isReady t = true)) ∧
  (∀ s : State, s.power.latched = none → s.power.target = .standby →
    (s.power.phase = .pd 1 → flowDone s = true → ∃ t, exec .pd1 s = .next t ∧ t.power.phase = .pd 2 ∧
      ∀ n, n < 32 → isIdle t n = false ∧ isRunning t n = false) ∧
    (s.power.phase = .pd 2 → ∃ t, exec .pd2 s = .next t ∧
      t.power.phase = (if s.power.short then .pd 4 else .pd 3) ∧ ∀ p, p < 24 → (portOf t p).st = .disabled) ∧
    (s.power.phase = .pd 3 → ∃ t, exec .pd3 s = .next t ∧ t.power.phase = .pd 4 ∧
      (∀ n, n < 32 → (chOf t n).st = .undefined) ∧ t.galValid = []) ∧
    (s.power.phase = .pd 4 → ∃ t, exec .pd4 s = .next t ∧ t.power.phase = .standby ∧ t.pcie.speed = 0)) ∧
  (∀ s : State,
    (s.power.phase ≠ .pu 1 → exec .pu1 s = .next s) ∧ (∀ m, s.power.phase ≠ .pu 2 → exec (.pu2 m) s = .next s) ∧
    (∀ m, s.power.phase ≠ .pu 3 → exec (.pu3 m) s = .next s) ∧ (s.power.phase ≠ .pu 4 → exec .pu4 s = .next s) ∧
    (s.power.phase ≠ .pu 5 → exec .pu5 s = .next s) ∧ (s.power.phase ≠ .pu 6 → exec .pu6 s = .next s) ∧
    (s.power.phase ≠ .pd 1 → exec .pd1 s = .next s) ∧ (s.power.phase ≠ .pd 2 → exec .pd2 s = .next s) ∧
    (s.power.phase ≠ .pd 3 → exec .pd3 s = .next s) ∧ (s.power.phase ≠ .pd 4 → exec .pd4 s = .next s))

/-- R340, R341, R385, R387: Off, start-up and trips. Off keeps flowstone, the image slots and the trip record and
lasts 500 ms; a latched request is acted on at its end; the input's return starts the module, whose start-up ends in
Standby. A loss of the root of trust or a power trip sets FATAL, TRIP and its code, and takes Ready to PD2 with
Standby as target; a rail trips once its current has stood above its limit for 100 µs (R342); the hold-off ends 5 s
after Standby. -/
def Obligations.TripsAndStartUp : Prop :=
  (∀ s : State, s.power.phase = .toOff → ∃ t, exec .offReached s = .next t ∧ t.power.phase = .offDwell ∧ t.flow = s.flow ∧
    t.slots = s.slots ∧ t.power.trip = s.power.trip ∧ t.power.latched = s.power.latched ∧ (∀ n, (chOf t n).st = .undefined)) ∧
  (∀ s : State, s.power.phase = .ready → ∃ t, exec .inputLoss s = .next t ∧ t.power.phase = .offDwell ∧ t.flow = s.flow ∧
    t.power.latched = none ∧ t.power.input = false ∧ t.slots = s.slots) ∧
  (∀ s : State, s.power.phase = .offDwell →
    (s.power.latched = none → exec .dwellEnd s = .next { s with power := { s.power with phase := .off } }) ∧
    (∀ k, s.power.latched = some k → exec .dwellEnd s =
      .next (askPower k { s with power := { s.power with phase := .off, latched := none } }))) ∧
  (∀ s : State, s.power.phase = .off → s.power.input = false → exec .startUp s = .next { s with
    time := 0, power := { s.power with input := true, phase := .startUp, target := .standby, trimAt := [] } }) ∧
  (∀ s : State, s.power.phase = .startUp → s.power.target = .standby → s.power.latched = none → s.power.en = false →
    ∃ t, exec .standbyReached s = .next t ∧ t.power.phase = .standby) ∧
  (∀ (s : State) (d : Fin 2) (r : Rail) (t0 : W64), Tab.get none (railKey d r) s.power.railOver = some t0 →
    (tripDue s (.rail d r) = true ↔ t0.toNat + 100000 ≤ now s)) ∧
  (∀ (s : State) (cause : TripCause), tripDue s cause = false → exec (.powerTrip cause) s = .next s) ∧
  (∀ s : State, s.power.phase = .ready → ∀ cause, tripDue s cause = true →
    (∃ t, exec (.powerTrip cause) s = .next t ∧ isFatal t = true ∧ t.power.phase = .pd 2 ∧ t.power.target = .standby ∧
      t.power.trip = true ∧ t.power.lastTrip = 0x100B ∧ t.power.holdoff = true ∧ t.power.latched = none) ∧
    (∃ t, exec .rotLost s = .next t ∧ isFatal t = true ∧ t.power.phase = .pd 2 ∧ t.power.target = .standby ∧
      t.power.trip = true ∧ t.power.lastTrip = 0x100C ∧ t.power.holdoff = true ∧ t.power.latched = none)) ∧
  (∀ s : State, s.power.phase = .standby → s.power.holdoff = true →
    (s.power.holdUntil.toNat ≤ now s → exec .tripHoldoffEnd s =
      .next { s with power := { s.power with holdoff := false, holdUntil := 0 } }) ∧
    (now s < s.power.holdUntil.toNat → exec .tripHoldoffEnd s = .next s))

/-! ## Damper, housekeeping and energy -/

/-- R342, R343, R345, R347 to R351: the damper. A window of 8 samples whose mean is over a current limit cuts the
current term of every cluster of the die to three quarters of its level, at least 1; one below 95 % of both limits
raises it by 1 every 10 µs, and one between leaves it; a budget period moves the budget term of a cluster of one
alcove as Table PWR-10 gives it; a frequency change ends at its target; a droop holds the level at 0 until its
release. -/
def Obligations.DamperTermsFollowTheirRules : Prop :=
  (∀ (s : State) (die : Fin 2) (w : List RailSample), w.length = 8 →
    let c := (w.map (fun x => x.vddC.toNat)).sum
    let g := (w.map (fun x => x.vddG.toNat)).sum
    let lim := 1000 * ilim s die
    let above := 8 * lim < c ∨ 8 * 60000 < g
    let under := 20 * c < 19 * (8 * lim) ∧ 20 * g < 19 * (8 * 60000)
    (islandsOn s = false → exec (.currentWindow die w) s = .next s) ∧
    (islandsOn s = true → ∃ t, exec (.currentWindow die w) s = .next t ∧
      (∀ k ∈ clustersOf die, (clusterOf t k).budget = (clusterOf s k).budget ∧
        (clusterOf t k).thermal = (clusterOf s k).thermal ∧
        (above → (clusterOf t k).current = max 1 (levelOf s (clusterOf s k) * 3 / 4)) ∧
        (under → (clusterOf t k).current = if (Tab.get 0 die s.power.railRise).toNat + 10000 ≤ now s
          then min 64 ((clusterOf s k).current + 1) else (clusterOf s k).current) ∧
        (¬ above → ¬ under → clusterOf t k = clusterOf s k)) ∧
      (∀ k, k ∉ clustersOf die → clusterOf t k = clusterOf s k))) ∧
  (∀ (s : State) (shared : W32) (power : List Nat), isReady s = false → exec (.budgetPeriod shared power) s = .next s) ∧
  (∀ (s : State) (shared : W32) (power : List Nat), isReady s = true →
    let shares := allShares s
    ∃ t, exec (.budgetPeriod shared power) s = .next t ∧
      (∀ a ∈ shares, ∀ k ∈ a.clusters, shares.filter (fun b => b.clusters.contains k) = [a] →
        (clusterOf t k).budget = budgetTerm (budgetOf s shared.toNat) ((shares.map (·.weight)).sum) a.weight
          a.clusters.length (power.getD k 0) (clusterOf s k).budget) ∧
      (∀ k, (∀ a ∈ shares, k ∉ a.clusters) → clusterOf t k = clusterOf s k)) ∧
  (∀ b total w size power old, 1 ≤ old → old ≤ 64 →
    1 ≤ budgetTerm b total w size power old ∧ budgetTerm b total w size power old ≤ 64) ∧
  (∀ (s : State) (k : BitVec 6),
    let c := clusterOf s k.toNat
    (c.change = .running → exec (.frequencyChangeComplete k) s =
      .next (setCluster k.toNat { c with fcode := c.tcode, change := .none } s)) ∧
    (c.change ≠ .running → exec (.frequencyChangeComplete k) s = .next s) ∧
    (isReady s = true → islandRuns s k.toNat = true →
      exec (.frequencyStep k) s = .next (setCluster k.toNat (stepFrequency s (noteLevel s c)) s)) ∧
    ((isReady s = false ∨ islandRuns s k.toNat = false) → exec (.frequencyStep k) s = .next s) ∧
    (∀ t0, c.change = .deferred (some t0) → c.droop = false →
      (t0.toNat ≤ now s → exec (.deferredChangeStart k) s = .next (setCluster k.toNat { c with change := .running } s)) ∧
      (now s < t0.toNat → exec (.deferredChangeStart k) s = .next s)) ∧
    ((c.droop = true ∨ islandRuns s k.toNat = false) → exec (.droopAssert k) s = .next s) ∧
    (c.droop = false → exec (.droopRelease k) s = .next s) ∧
    (c.droop = false → islandRuns s k.toNat = true → ∃ t, exec (.droopAssert k) s = .next t ∧
      levelOf t (clusterOf t k.toNat) = 0 ∧ (clusterOf t k.toNat).droop = true ∧
      (∀ j, j ≠ k.toNat → clusterOf t j = clusterOf s j)) ∧
    (c.droop = true → ∃ t, exec (.droopRelease k) s = .next t ∧ (clusterOf t k.toNat).droop = false ∧
      (clusterOf t k.toNat).fcode = c.fcode ∧ (∀ j, j ≠ k.toNat → clusterOf t j = clusterOf s j)))

/-! ## The host -/

/-- R371 to R375, R379, R389 to R391: the endpoint. A cause of a warm reset in Ready starts one, and takes the
configuration state to its defaults (PERST, hot reset and PF FLR); PCIE_LINK_UP notes speed and width, with event
0x1104 below the full link; a configuration request is retried until Ready, refused for a function that does not
exist, and else answered, with the capabilities of Table MOD-1; a warm reset ends when no chamber is CLEARING any
more, with records 0x0202 and 0x1102; a VF's function-level reset clears its configuration; a host read is completed,
failed or issued again; a held-off message is sent. -/
def Obligations.HostResetsAndRequests : Prop :=
  (∀ s : State,
    exec .perstDeassert s = .next { s with pcie := { s.pcie with perst := false } } ∧
    (isReady s = true → s.pcie.warm = false →
      (∃ t, exec .perstAssert s = .next t ∧ t.pcie.warm = true ∧ t.pcie.warmCause = 1 ∧ t.pcie.perst = true ∧
        t.pcie.speed = 0 ∧ t.pcie.vfEnable = false ∧ t.merge = [] ∧ t.hostReads = []) ∧
      (∃ t, exec .hotReset s = .next t ∧ t.pcie.warm = true ∧ t.pcie.warmCause = 2 ∧ t.pcie.speed = 0 ∧
        t.pcie.vfEnable = false ∧ t.merge = [] ∧ t.hostReads = []) ∧
      (s.pcie.speed ≠ 0 → ∃ t, exec .pfFlr s = .next t ∧ t.pcie.warm = true ∧ t.pcie.warmCause = 3 ∧
        t.pcie.speed = s.pcie.speed ∧ t.pcie.vfEnable = false) ∧
      (served s 0 → exec .modRstWarm s = .next (startWarm 4 (countedG s 0x4014)))) ∧
    ((isReady s = false ∨ s.pcie.warm = true) → served s 0 → exec .modRstWarm s = .next (countedG s 0x4014)) ∧
    (s.pcie.warm = true → noneClearing s = true → ∃ t, exec .warmResetComplete s = .next t ∧ t.pcie.warm = false ∧
      t.mbxCmd = none ∧ t.hold = [] ∧ t.time = s.time) ∧
    ((s.pcie.warm = false ∨ noneClearing s = false) → exec .warmResetComplete s = .next s)) ∧
  (∀ (s : State) (speed : BitVec 3) (width : BitVec 5), endpointUp s = true → s.pcie.perst = false →
    (5 ≤ speed.toNat → 16 ≤ width.toNat → exec (.pcieLinkUp speed width) s =
      .next { s with pcie := { s.pcie with speed := speed.toNat, width := width.toNat } }) ∧
    ((speed.toNat < 5 ∨ width.toNat < 16) → exec (.pcieLinkUp speed width) s =
      .next (eventG 0x1104 [width.toNat, speed.toNat]
        { s with pcie := { s.pcie with speed := speed.toNat, width := width.toNat } }))) ∧
  (∀ (s : State) (fn : Fn) (r : ConfigReg) (v : W32) (write : Bool), s.pcie.speed ≠ 0 →
    ((isReady s = false ∨ s.pcie.warm = true) → exec (.configurationRequest fn write r v) s = .next (emit (.cfgRetry fn) s)) ∧
    (isReady s = true → s.pcie.warm = false → fnExists s fn = false →
      exec (.configurationRequest fn write r v) s = .next (emit (.cplUr fn) s)) ∧
    (isReady s = true → s.pcie.warm = false → fnExists s fn = true →
      exec (.configurationRequest fn false r v) s = .next (emit (.cfg fn (configRead s fn r)) s) ∧
      exec (.configurationRequest fn true r v) s = .next (emit (.cfg fn 0) (configWrite fn r v s)))) ∧
  (∀ (s : State) (fn : Fn),
    (∀ c ∈ [PcieCap.pcie, .msix, .ari], configRead s fn (.capability c) = 1) ∧
    (∀ c ∈ [PcieCap.powerManagement, .aer, .sriov, .acs, .resizableBar, .serialNumber, .tag10],
      configRead s fn (.capability c) = if fn = 0 then 1 else 0) ∧
    (∀ c ∈ [PcieCap.ats, .pasid, .pri, .ptm, .l1Substates, .clockPm], configRead s fn (.capability c) = 0) ∧
    configRead s 0 .totalVfs = 32 ∧ configRead s 0 .initialVfs = 32 ∧ configRead s fn .maxPayloadSupported = 2) ∧
  (∀ (s : State) (k : Fin 32) (fn : Fn), fn.val = k.val + 1 → s.pcie.warm = false → isReady s = true → s.pcie.speed ≠ 0 →
    fnExists s fn = true → fnCh s fn = none →
    exec (.vfFlr k) s = .next { s with pcie := functionReset fn s.pcie }) ∧
  (∀ (s : State) (k : Fin 32) (fn : Fn) (n : Nat), fn.val = k.val + 1 → s.pcie.warm = false → isReady s = true →
    s.pcie.speed ≠ 0 → fnExists s fn = true → fnCh s fn = some n → (chOf s n).st = .running →
    ∃ t, exec (.vfFlr k) s = .next t ∧ (chOf t n).st = .clearing) ∧
  (∀ (s : State) (r : HostRead) (tag : Nat), s.hostReads.find? (fun q => q.tag == tag) = some r →
    (∀ data, exec (.hostCompletion tag true data) s = .next (settleAll r.ch (hostBytes r data s))) ∧
    (∀ data, let u := drainHost { s with hostReads := s.hostReads.erase r }
      ((streamAt (chOf u r.ch) r.stream).seq = r.seq →
        exec (.hostCompletion tag false data) s = .next (dmaFail r.ch r.seq u)) ∧
      ((streamAt (chOf u r.ch) r.stream).seq ≠ r.seq → exec (.hostCompletion tag false data) s = .next u)) ∧
    (r.issued.toNat + dmaTimeout s ≤ now s → exec (.dmaReadTimeout tag) s = .next (emit (.hostRead r.fn r.tag r.addr r.len)
      { s with hostReads := s.hostReads.map (fun q => if q.tag = tag then { q with issued := s.time } else q) })) ∧
    (now s < r.issued.toNat + dmaTimeout s → exec (.dmaReadTimeout tag) s = .next s)) ∧
  (∀ (s : State) (fn : Fn) (v : BitVec 11) (t0 : W64), Tab.get none (vecKey fn v.toNat) s.pcie.lastMsg = some t0 →
    Tab.get false (vecKey fn v.toNat) s.pcie.due = true →
    let us := fld (ringGet s (vectorRing s fn v.toNat) 0x20) 15 0
    (t0.toNat + 1000 * us ≤ now s → exec (.holdoffExpiry fn v) s = .next (sendVec fn v.toNat
      { s with pcie := { s.pcie with due := Tab.set false (vecKey fn v.toNat) false s.pcie.due } })) ∧
    (now s < t0.toNat + 1000 * us → exec (.holdoffExpiry fn v) s = .next s))

/-! ## Instructions of threads -/

/-- R163, R83: the integer instructions and NOP. Each gives every thread of its path the result of its row of the
table: sums, differences and products wrap, ADDSAT.W saturates, MULHI.W is the upper half, shifts below 32, MIN.W,
MAX.W and CMP.W follow TYPE, PICK, BITCNT, LZCNT and COPY; every other register, thread, group and part of the
module stays. (What the rows leave unstated is free in the model: log entries 36 to 39.) R83, R140, R162: the FP32
and BF16 instructions. Each result is the exact sum, product or fused multiply-add of the operands' values, rounded
once to nearest even; MAC.F2 does so on both registers of its pairs; MIN.F, MAX.F and CMP.F compare the values, and
a NaN makes CMP.F 0, but 1 under NE; MIN.F and MAX.F of a NaN give the NaN of R72. (Which of two zeros of opposite
signs they give is free in the model: log entry 13.) -/
def Obligations.RegisterInstructionsComputeTheirRows : Prop :=
  (∀ r ∈ integerRows, Computes r) ∧
  (∀ r ∈ floatRows, Computes r)

/-- R159 to R161, R163: CONV, DQBLK, the special functions, GETSR and SPARK compute their rows; QBLK quantises the
32 values of the group's threads, of which those outside the path count 0, and gives each thread of the path its
code and the block's scale; RECIP of 0 is an infinity and of an infinity 0, RSQRT, SQRT and LOG2 of a value below 0
are NaN, and EXP2 of an integer is that power of two. (The upper half of a BF16 result of CONV is free in the model:
log entry 40.) -/
def Obligations.ConversionsAndFunctionsComputeTheirRows : Prop :=
  (∀ r ∈ otherRows, Computes r) ∧
  (∀ (s : State) (loc : Loc) (g : Group) (path : List Nat) (w : W64) (u : State) (f : Elt),
    issues s loc g path w u → iOpc w = 0x31 → 4 ≤ iTy w → iTy w ≤ 7 → eltOf (iTy w - 3) = some f → iMod w < 128 →
    codesLegal u g path [iA w] [iD w] → iD w < 48 → iA w ≠ 57 →
    ∃ t h, exec (.qblk loc) s = .next t ∧ groupAt t loc.core.val loc.slot.val = some h ∧
      (∀ i ∈ path, (threadAt h i).pc = (threadAt g i).pc + 8 ∧
        register u h i (iD w) =
          (let q := quantBlock f ((List.range 32).map (fun j =>
              if path.contains j then (operands u g path [iA w] j).getD 0 0 else 0)) (List.replicate 32 .rne)
           BitVec.ofNat 32 (q.codes.getD i 0 + q.scale * 256))) ∧
      othersKept g h path ∧ otherGroups u t loc ∧ sameMemory u t) ∧
  (r32 (recipX (x32 0)) = 0x7F800000#32 ∧ r32 (recipX (x32 0x80000000)) = 0xFF800000#32 ∧
    r32 (recipX (x32 0x7F800000)) = 0 ∧ r32 (recipX (x32 0xFF800000)) = 0x80000000#32) ∧
  (∀ a : W32, cmpX (x32 a) (.fin false 0 0) = some (-1) →
    r32 (sqrtX (x32 a)) = 0x7FC00000#32 ∧ r32 (rsqrtX (x32 a)) = 0x7FC00000#32 ∧ r32 (log2X (x32 a)) = 0x7FC00000#32) ∧
  (∀ k : Nat, k ≤ 127 → r32 (exp2X (.fin false k 0)) = BitVec.ofNat 32 ((k + 127) * 2 ^ 23))

/-- R141, R144, R145, R162: control instructions. BRA, and BRZ and BRNZ on A, move the path's threads by IMM
instructions from the next one; CALL and CALLR that find a window free write the return address into V30 and V31 and
move to the next window; RET at a depth of 1 or more with its caller's window resident goes to the address in V14
and V15 and moves back; RESUME leaves trap context at the address in T1:T0; SLEEP waits IMM ns. Every other thread,
group and part of the module stays. -/
def Obligations.ControlInstructionsMoveTheirThreads : Prop :=
  ∀ (s : State) (loc : Loc) (g : Group) (path : List Nat) (w : W64) (u : State), issues s loc g path w u →
    let d := (chOf u g.ch).winDepth
    let there := fun (t : Thread) => t.pc + 8 + 8 * (iImm w).signExtend 64
    let a := fun (i : Nat) => (operands u g path [iA w] i).getD 0 0
    let latch := fun (t : Thread) => if iA w = 57 then hi32 u.time.toNat else t.timeHi
    let goto := fun (dest : W64) (t : Thread) =>
      { writeCodes d [38, 39] [lo32 (t.pc.toNat + 8), lo32 ((t.pc.toNat + 8) / 2 ^ 32 % 2 ^ 16)] t with
        win := (t.win + 1) % (d + 1), res := t.res + 1, depth := t.depth + 1, pc := dest }
    (iOpc w = 0x50 → Becomes u loc g path (exec (.bra loc) s) (fun _ t => { t with pc := there t })) ∧
    (iOpc w = 0x51 → codesLegal u g path [iA w] [] → Becomes u loc g path (exec (.brz loc) s)
      (fun i t => { t with pc := (if a i = 0 then there t else t.pc + 8), timeHi := latch t })) ∧
    (iOpc w = 0x52 → codesLegal u g path [iA w] [] → Becomes u loc g path (exec (.brnz loc) s)
      (fun i t => { t with pc := (if a i ≠ 0 then there t else t.pc + 8), timeHi := latch t })) ∧
    (iOpc w = 0x53 → (∀ i ∈ path, (threadAt g i).res ≠ d) →
      Becomes u loc g path (exec (.call loc) s) (fun _ t => goto (there t) t)) ∧
    (iOpc w = 0x54 → codesLegal u g path [iA w, nextCode (iA w)] [] → (∀ i ∈ path, (threadAt g i).res ≠ d) →
      Becomes u loc g path (exec (.callr loc) s) (fun i t =>
        let v := operands u g path [iA w, nextCode (iA w)] i
        { goto (BitVec.ofNat 64 ((v.getD 0 0).toNat + 2 ^ 32 * (v.getD 1 0).toNat)) t with
          timeHi := (if iA w = 57 ∨ nextCode (iA w) = 57 then hi32 u.time.toNat else t.timeHi) })) ∧
    (iOpc w = 0x55 → codesLegal u g path [22, 23] [] → (∀ i ∈ path, (threadAt g i).depth ≠ 0 ∧ (threadAt g i).res ≠ 1) →
      Becomes u loc g path (exec (.ret loc) s) (fun i t => { t with
        pc := BitVec.ofNat 64 ((register u g i 22).toNat + (register u g i 23).toNat % 2 ^ 16 * 2 ^ 32),
        win := (t.win + d) % (d + 1), res := t.res - 1, depth := t.depth - 1 })) ∧
    (iOpc w = 0x56 → codesLegal u g path [40, 41] [] → (∀ i ∈ path, (threadAt g i).trap = true) →
      Becomes u loc g path (exec (.resume loc) s) (fun i t =>
      { t with
        trap := false,
        pc := BitVec.ofNat 64 ((register u g i 40).toNat + (register u g i 41).toNat % 2 ^ 16 * 2 ^ 32) })) ∧
    (iOpc w = 0x58 → (iImm w).toNat ≤ 1000000 → Becomes u loc g path (exec (.sleep loc) s) (fun _ t =>
      { t with pc := t.pc + 8, wait := .sleep (BitVec.ofNat 64 (now u + (iImm w).toNat)) }))

/-- R134, R144, R145, R147, R148, R158, R162: the ends of threads, the window engines and CNTADD. EXIT, and RET at
depth 0, end the path's threads; a CALL with every window resident and a RET with only its own take the trap to
TRAP_ADDR where there is one, outside trap context; SPILLW and FILLW do one step of the engines, and a fill undoes the
spill before it, while no register that it reads fails its parity (R314); CNTADD adds A to its counter for each
thread; a sleep ends at its time and not before. -/
def Obligations.WindowsCountersAndEndsOfThreads : Prop :=
  (∀ (s : State) (loc : Loc) (g : Group) (path : List Nat) (w : W64) (u : State), issues s loc g path w u →
    let x : Iss := ⟨loc, g, path, w⟩
    let v := issued u loc g path w
    (iOpc w = 0x57 → exec (.exitT loc) s = .next (settleBlock g (path.foldl (fun t i => endThread loc i t) v))) ∧
    (iOpc w = 0x55 → (threadAt g (path.headD 0)).depth = 0 →
      exec (.ret loc) s = .next (settleBlock g (path.foldl (fun t i => endThread loc i t) v))) ∧
    (iOpc w = 0x47 → (∀ i ∈ path, (threadAt g i).trap = true) → exec (.spillw loc) s =
      .next (eachWindow x (fun i t y => spillStep x (x.depth v) i { t with pc := t.pc + 8 } y) path v)) ∧
    (iOpc w = 0x48 → (∀ i ∈ path, (threadAt g i).trap = true) → exec (.fillw loc) s =
      .next (eachWindow x (fun i t y => fillStep x (x.depth v) i { t with pc := t.pc + 8 } y) path v)) ∧
    (iOpc w = 0x60 → (iImm w).toNat % 65536 ≤ 4095 → codesLegal u g path [iA w] [] → exec (.cntadd loc) s =
      .next (noteWaits g.ch (path.foldl (fun t i => changeCounter g.ch ((iImm w).toNat % 65536)
        (counterOf (chOf t g.ch) ((iImm w).toNat % 65536) + (operands u g path [iA w] i).getD 0 0) t)
        (advance x (fun _ t => latchTime (x.special v) (iA w) t) v))))) ∧
  (∀ (x : Iss) (s : State) (i dest : Nat) (t : Thread), t.trap = false → trapAddr x s ≠ 0 →
    (t.res = x.depth s → callThread x dest i t s = .ok (enterTrap (trapAddr x s) 1 t) (countWindow x 0x620 s)) ∧
    (t.res = 1 → retThread x i t s = .ok (enterTrap (trapAddr x s) 2 t) (countWindow x 0x620 s))) ∧
  (∀ (x : Iss) (d i : Nat) (t : Thread) (s : State), d ≤ 6 → t.oldest ≤ d → windowBad t [t.oldest] = false → spillBase x.g i ≤ regT7 t →
    regT7 t + 64 ≤ spillBase x.g i + x.g.spill → regT7 t + 64 < 2 ^ 32 →
    ∃ t1 s1 t2, spillStep x d i t s = .ok t1 s1 ∧ t1.res = t.res - 1 ∧ regT7 t1 = regT7 t + 64 ∧
      fillStep x d i t1 s1 = .ok t2 s1 ∧ t2.oldest = t.oldest ∧ t2.res = t.res ∧
      (∀ k, Tab.get 0 k t2.regs = Tab.get 0 k t.regs)) ∧
  (∀ (s : State) (loc : Loc) (g : Group) (i : Fin 32) (until_ : W64), groupAt s loc.core.val loc.slot.val = some g →
    (threadAt g i).wait = .sleep until_ →
    (until_.toNat ≤ now s → exec (.sleepEnd loc i) s = .next (setGroup loc.core.val loc.slot.val
      (some (modThread i (fun t => { t with wait := .run }) g)) s)) ∧
    (now s < until_.toNat → ∃ t, exec (.sleepEnd loc i) s = .next t ∧ groupAt t loc.core.val loc.slot.val = some g))

/-- R149 to R151, R153 to R156, R168, R172: memory instructions that no check stops and that need not wait do their
access for each thread of the path, in order; a load from core space gives its thread the bytes that stand there,
and MEMORY_RESULT_RETURN writes them to its register; a store to core space changes the bytes stored and no other
byte of any memory; FENCE at device or system scope waits for the thread's remote REDs to enter their lines, at
system scope also for its remote stores, and BAR waits for the block. -/
def Obligations.MemoryInstructionsMakeTheirAccesses : Prop :=
  (∀ (s : State) (loc : Loc) (g : Group) (path : List Nat) (w : W64) (u : State), issues s loc g path w u →
    let x : Iss := ⟨loc, g, path, w⟩
    let v := issued u loc g path w
    let clear := fun (len : Nat) (rd wr : Bool) (srcs dsts : List Nat) =>
      addrOk w = true ∧ codesLegal u g path (addrCodes w ++ srcs) dsts ∧
      ∀ i ∈ path, accessCheck x v len rd wr i = none
    let z := fun (srcs : List Nat) => latchPath x (addrCodes w ++ srcs) v
    let data := if iTy w = 3 then [iD w, nextCode (iD w)] else [iD w]
    (iOpc w = 0x40 → iTy w ≤ 3 → clear (2 ^ iTy w) true false [] data → exec (.ld loc) s =
      .next (eachThread x (memAddr x (z [])) false (fun i => loadOne x (2 ^ iTy w) (memAddr x (z []) i) i) path (z []))) ∧
    (iOpc w = 0x41 → iTy w ≤ 3 → iSpace w = 0 → clear (2 ^ iTy w) false true data [] →
      ∃ t, exec (.st loc) s = .next t ∧
        (∀ i, path = [i] → ∀ p, corePlace v loc g (memAddr x v i) (2 ^ iTy w) = some p →
          coreRead p.core p.off (2 ^ iTy w) t = storeData x v (2 ^ iTy w) i) ∧
        (∀ k, (∀ i ∈ path, ∀ p, corePlace v loc g (memAddr x v i) (2 ^ iTy w) = some p →
            k < coreKey p.core p.off ∨ coreKey p.core p.off + 2 ^ iTy w ≤ k) →
          Tab.get 0 k t.core = Tab.get 0 k u.core) ∧ t.gal = u.gal ∧ t.bulk = u.bulk ∧ t.chambers = u.chambers) ∧
    (iOpc w = 0x41 → iTy w ≤ 3 → iSpace w ≠ 0 → clear (2 ^ iTy w) false true data [] →
      partFault x (z data) (gathered x (z data) (2 ^ iTy w)) = none →
      exec (.st loc) s = .next (storeWords x (z data) (gathered x (z data) (2 ^ iTy w)))) ∧
    (iOpc w = 0x42 → ((iTy w = 4 ∧ iSpace w = 1) ∨ (iTy w = 5 ∧ iSpace w = 2)) →
      clear (8 * 2 ^ (iTy w - 2)) false true [iD w] [] → (∀ i ∈ path, cpyCheck x (z [iD w]) i = none) →
      exec (.cpy loc) s = .next (advance x (fun _ t => t)
        (eachThread x (memAddr x (z [iD w])) (!Config.cpyToCore w) (fun i t =>
          match corePlace (z [iD w]) loc g (cpyCore x (z [iD w]) i) (cpyLen w) with
          | some p => cpyOne x p (memAddr x (z [iD w]) i) i t
          | none => (.ok (), t)) path (z [iD w])))) ∧
    (iOpc w = 0x45 → Becomes u loc g path (exec (.fence loc) s) (fun i t => { t with
      pc := t.pc + 8, wait := (if 2 ≤ iScope w ∧ openAccess v loc g (iScope w == 3) i then .ack (iScope w == 3) else t.wait) })) ∧
    (iOpc w = 0x46 → exec (.bar loc) s = .next (settleBlock g (advance x (fun _ t => { t with wait := .bar }) v)))) ∧
  (∀ (n core : Nat) (pc : W64) (s : State), sameMemory s (fetchIns n core pc s).2) ∧
  (∀ (x : Iss) (s : State) (len a i : Nat) (g : Group) (p : CorePlace), groupAt s x.loc.core.val x.loc.slot.val = some g →
    i < g.threads.length → iSpace x.w = 0 → (len = 1 ∨ len = 2 ∨ len = 4 ∨ len = 8) →
    corePlace s x.loc x.g a len = some p →
    ∃ t h b, loadOne x len a i s = (.ok (), t) ∧ groupAt t x.loc.core.val x.loc.slot.val = some h ∧
      (threadAt h i).wait = .mem (iD x.w) (len == 8) (some b) ∧ natLe len b.toNat = coreRead p.core p.off len s ∧
      (threadAt h i).pc = (threadAt g i).pc + 8 ∧ sameMemory s t) ∧
  (∀ (s : State) (loc : Loc) (g : Group) (i : Fin 32) (c : Nat) (pair : Bool) (b : W64),
    groupAt s loc.core.val loc.slot.val = some g → i.val < g.threads.length →
    (threadAt g i).wait = .mem c pair (some b) → c < 40 →
    ∃ t h, exec (.memoryResultReturn loc i) s = .next t ∧ groupAt t loc.core.val loc.slot.val = some h ∧
      (threadAt h i).wait = .run ∧ register s h i c = lo32 b.toNat ∧ (pair = true → register s h i (c + 1) = hi32 b.toNat) ∧
      (∀ j, j ≠ i.val → threadAt h j = threadAt g j) ∧ otherGroups s t loc ∧ { t with groups := s.groups } = s)

/-- R155, R156, R164, R198, R199, R206: ATOM and RED. An ATOM that no check stops does its step for each thread of the
path in order, or sends it to the owner of a remote address, and the thread waits for the old value; a RED does the
step or, in remote space, contributes to its line, and waits for nothing. A chamber without an echo cache sends one
packet for each line that the instruction touches (R206). A local step reads the old value, and writes what Table
THR-5 gives: sums wrap, the maxima are of signed and unsigned numbers, CAS writes where the compare value matches and
leaves memory alone where it does not. -/
def Obligations.AtomicsReadThenWrite : Prop :=
  (∀ (s : State) (loc : Loc) (g : Group) (path : List Nat) (w : W64) (u : State), issues s loc g path w u →
    let x : Iss := ⟨loc, g, path, w⟩
    let len := atomWidth (iTy w)
    let dst := if len = 8 then [iD w, nextCode (iD w)] else [iD w]
    let clear := fun (srcs dsts : List Nat) =>
      addrOk w = true ∧ codesLegal u g path (addrCodes w ++ srcs) dsts ∧
      ∀ i ∈ path, accessCheck x (issued u loc g path w) len true true i = none
    let z := fun (srcs : List Nat) => latchPath x (addrCodes w ++ srcs) (issued u loc g path w)
    let b2 := [iB w, nextCode (iB w), iD w, nextCode (iD w)]
    (∀ c ∈ [(0, [iB w], Instr.atomIadd loc), (1, [iB w], .atomImax loc), (2, [iB w], .atomUmax loc),
        (3, [iB w], .atomFadd loc), (4, [iB w, iD w], .atomCas loc), (5, b2, .atomCas64 loc)],
      iOpc w = 0x43 → iTy w = c.1 → clear c.2.1 dst →
      let y := z c.2.1
      let low := fun (v : Nat) => BitVec.ofNat 64 (if c.1 = 5 then v else v % 2 ^ 32)
      (iSpace w ≠ 3 → exec c.2.2 s = .next (eachThread x (memAddr x y) true (fun i t =>
        andThen (atomLocal x y i t) (fun old v => (.ok (), await x i (len == 8) (some (BitVec.ofNat 64 old)) v))) path y)) ∧
      (iSpace w = 3 → exec c.2.2 s = .next (eachThread x (memAddr x y) true (fun i t =>
        (.ok (), remoteAtomic g.ch g.seq (memAddr x y i) c.1 (low (atomOperand x y i))
          (if c.1 = 4 ∨ c.1 = 5 then low (atomCmp x y i) else 0) [⟨loc, i, 0, len⟩] (await x i (len == 8) none t))) path y))) ∧
    (∀ c ∈ [(0, Instr.redIadd loc), (1, .redImax loc), (2, .redUmax loc), (3, .redFadd loc)],
      iOpc w = 0x44 → iSpace w ≠ 3 → iTy w = c.1 → clear [iB w] [] →
      let y := z [iB w]
      exec c.2 s = .next (advance x (fun _ t => t) (eachThread x (memAddr x y) true (fun i t =>
        andThen (atomLocal x y i t) (fun _ v => (.ok (), v))) path y))) ∧
    (∀ c ∈ [(0, 2, iB w, Instr.redIadd loc), (1, 3, iB w, .redImax loc), (3, 0, iB w, .redFadd loc), (6, 1, iD w, .redHadd loc)],
      iOpc w = 0x44 → iSpace w = 3 → iTy w = c.1 → clear [c.2.2.1] [] →
      let y := z [c.2.2.1]
      let part := fun (i : Nat) => ({
        seq := g.seq, fn := c.2.1, addr := BitVec.ofNat 64 (lineAddr (memAddr x y i)), hint := iHint w,
        mask := byteMask (memAddr x y i % 256) len,
        data := List.replicate (memAddr x y i % 256) 0 ++ natLe len (atomOperand x y i), threads := [(loc, i)] } : Contrib)
      exec c.2.2.2 s = .next (advance x (fun _ t => t) (forAll
        (if hasEcho y (chOf y g.ch) = true then path.map part else (path.map part).foldl joinContrib []) (contribute g.ch) y)))) ∧
  (∀ l : List Contrib, (l.foldl joinContrib []).Pairwise (fun a b => a.addr ≠ b.addr) ∧
    ∀ k ∈ l, ∃ j ∈ l.foldl joinContrib [], j.addr = k.addr ∧ j.mask &&& k.mask = k.mask) ∧
  (∀ (p : CorePlace) (func operand cmp : Nat) (s : State), func ≤ 5 →
    let w := atomWidth func
    let old := leNat (coreRead p.core p.off w s)
    let r := atomCore p func operand cmp s
    r.1 = old ∧ r.2.gal = s.gal ∧ r.2.bulk = s.bulk ∧
    (∀ k, (k < coreKey p.core p.off ∨ coreKey p.core p.off + w ≤ k) → Tab.get 0 k r.2.core = Tab.get 0 k s.core) ∧
    (func = 0 → leNat (coreRead p.core p.off w r.2) = (old + operand) % 2 ^ 32) ∧
    (func = 1 → (lo32 (leNat (coreRead p.core p.off w r.2))).toInt = max (lo32 old).toInt (lo32 operand).toInt) ∧
    (func = 2 → leNat (coreRead p.core p.off w r.2) = max old (operand % 2 ^ 32)) ∧
    (func = 3 → lo32 (leNat (coreRead p.core p.off w r.2)) = r32 (addX (x32 (lo32 old)) (x32 (lo32 operand)))) ∧
    (func = 4 → leNat (coreRead p.core p.off w r.2) = if old = cmp % 2 ^ 32 then operand % 2 ^ 32 else old) ∧
    (func = 5 → leNat (coreRead p.core p.off w r.2) = if old = cmp then operand % 2 ^ 64 else old))
end

