-- ==== Sys2Proof/Laws/State.lean ====
section
/-! SUPPORT. State.lean: what each named update of State leaves alone, one lemma for each field, and what it
changes. -/
namespace Sys2Proof.Machine
open Sys2Proof

/-! ## setCh -/

@[simp] theorem setCh_time (n : Nat) (c : Chamber) (s : State) : (setCh n c s).time = s.time := rfl
@[simp] theorem setCh_mtb (n : Nat) (c : Chamber) (s : State) : (setCh n c s).mtb = s.mtb := rfl
@[simp] theorem setCh_g (n : Nat) (c : Chamber) (s : State) : (setCh n c s).g = s.g := rfl
@[simp] theorem setCh_ports (n : Nat) (c : Chamber) (s : State) : (setCh n c s).ports = s.ports := rfl
@[simp] theorem setCh_clusters (n : Nat) (c : Chamber) (s : State) : (setCh n c s).clusters = s.clusters := rfl
@[simp] theorem setCh_groups (n : Nat) (c : Chamber) (s : State) : (setCh n c s).groups = s.groups := rfl
@[simp] theorem setCh_core (n : Nat) (c : Chamber) (s : State) : (setCh n c s).core = s.core := rfl
@[simp] theorem setCh_gal (n : Nat) (c : Chamber) (s : State) : (setCh n c s).gal = s.gal := rfl
@[simp] theorem setCh_galValid (n : Nat) (c : Chamber) (s : State) : (setCh n c s).galValid = s.galValid := rfl
@[simp] theorem setCh_bulk (n : Nat) (c : Chamber) (s : State) : (setCh n c s).bulk = s.bulk := rfl
@[simp] theorem setCh_arrived (n : Nat) (c : Chamber) (s : State) : (setCh n c s).arrived = s.arrived := rfl
@[simp] theorem setCh_allocs (n : Nat) (c : Chamber) (s : State) : (setCh n c s).allocs = s.allocs := rfl
@[simp] theorem setCh_icache (n : Nat) (c : Chamber) (s : State) : (setCh n c s).icache = s.icache := rfl
@[simp] theorem setCh_engines (n : Nat) (c : Chamber) (s : State) : (setCh n c s).engines = s.engines := rfl
@[simp] theorem setCh_coreBad (n : Nat) (c : Chamber) (s : State) : (setCh n c s).coreBad = s.coreBad := rfl
@[simp] theorem setCh_galErr (n : Nat) (c : Chamber) (s : State) : (setCh n c s).galErr = s.galErr := rfl
@[simp] theorem setCh_bulkKey (n : Nat) (c : Chamber) (s : State) : (setCh n c s).bulkKey = s.bulkKey := rfl
@[simp] theorem setCh_bulkErr (n : Nat) (c : Chamber) (s : State) : (setCh n c s).bulkErr = s.bulkErr := rfl
@[simp] theorem setCh_bar2Wait (n : Nat) (c : Chamber) (s : State) : (setCh n c s).bar2Wait = s.bar2Wait := rfl
@[simp] theorem setCh_latching (n : Nat) (c : Chamber) (s : State) : (setCh n c s).latching = s.latching := rfl
@[simp] theorem setCh_shadows (n : Nat) (c : Chamber) (s : State) : (setCh n c s).shadows = s.shadows := rfl
@[simp] theorem setCh_opShadows (n : Nat) (c : Chamber) (s : State) : (setCh n c s).opShadows = s.opShadows := rfl
@[simp] theorem setCh_hostReads (n : Nat) (c : Chamber) (s : State) : (setCh n c s).hostReads = s.hostReads := rfl
@[simp] theorem setCh_hostWait (n : Nat) (c : Chamber) (s : State) : (setCh n c s).hostWait = s.hostWait := rfl
@[simp] theorem setCh_merge (n : Nat) (c : Chamber) (s : State) : (setCh n c s).merge = s.merge := rfl
@[simp] theorem setCh_img (n : Nat) (c : Chamber) (s : State) : (setCh n c s).img = s.img := rfl
@[simp] theorem setCh_flow (n : Nat) (c : Chamber) (s : State) : (setCh n c s).flow = s.flow := rfl
@[simp] theorem setCh_pcie (n : Nat) (c : Chamber) (s : State) : (setCh n c s).pcie = s.pcie := rfl
@[simp] theorem setCh_power (n : Nat) (c : Chamber) (s : State) : (setCh n c s).power = s.power := rfl
@[simp] theorem setCh_spdm (n : Nat) (c : Chamber) (s : State) : (setCh n c s).spdm = s.spdm := rfl
@[simp] theorem setCh_coord (n : Nat) (c : Chamber) (s : State) : (setCh n c s).coord = s.coord := rfl
@[simp] theorem setCh_banks (n : Nat) (c : Chamber) (s : State) : (setCh n c s).banks = s.banks := rfl
@[simp] theorem setCh_mbxCmd (n : Nat) (c : Chamber) (s : State) : (setCh n c s).mbxCmd = s.mbxCmd := rfl
@[simp] theorem setCh_jtag (n : Nat) (c : Chamber) (s : State) : (setCh n c s).jtag = s.jtag := rfl
@[simp] theorem setCh_draws (n : Nat) (c : Chamber) (s : State) : (setCh n c s).draws = s.draws := rfl
@[simp] theorem setCh_free (n : Nat) (c : Chamber) (s : State) : (setCh n c s).free = s.free := rfl
@[simp] theorem setCh_out (n : Nat) (c : Chamber) (s : State) : (setCh n c s).out = s.out := rfl
@[simp] theorem setCh_pending (n : Nat) (c : Chamber) (s : State) : (setCh n c s).pending = s.pending := rfl

/-! ## modCh -/

@[simp] theorem modCh_time (n : Nat) (f : Chamber → Chamber) (s : State) : (modCh n f s).time = s.time := rfl
@[simp] theorem modCh_mtb (n : Nat) (f : Chamber → Chamber) (s : State) : (modCh n f s).mtb = s.mtb := rfl
@[simp] theorem modCh_g (n : Nat) (f : Chamber → Chamber) (s : State) : (modCh n f s).g = s.g := rfl
@[simp] theorem modCh_ports (n : Nat) (f : Chamber → Chamber) (s : State) : (modCh n f s).ports = s.ports := rfl
@[simp] theorem modCh_clusters (n : Nat) (f : Chamber → Chamber) (s : State) : (modCh n f s).clusters = s.clusters := rfl
@[simp] theorem modCh_groups (n : Nat) (f : Chamber → Chamber) (s : State) : (modCh n f s).groups = s.groups := rfl
@[simp] theorem modCh_core (n : Nat) (f : Chamber → Chamber) (s : State) : (modCh n f s).core = s.core := rfl
@[simp] theorem modCh_gal (n : Nat) (f : Chamber → Chamber) (s : State) : (modCh n f s).gal = s.gal := rfl
@[simp] theorem modCh_galValid (n : Nat) (f : Chamber → Chamber) (s : State) : (modCh n f s).galValid = s.galValid := rfl
@[simp] theorem modCh_bulk (n : Nat) (f : Chamber → Chamber) (s : State) : (modCh n f s).bulk = s.bulk := rfl
@[simp] theorem modCh_arrived (n : Nat) (f : Chamber → Chamber) (s : State) : (modCh n f s).arrived = s.arrived := rfl
@[simp] theorem modCh_allocs (n : Nat) (f : Chamber → Chamber) (s : State) : (modCh n f s).allocs = s.allocs := rfl
@[simp] theorem modCh_icache (n : Nat) (f : Chamber → Chamber) (s : State) : (modCh n f s).icache = s.icache := rfl
@[simp] theorem modCh_engines (n : Nat) (f : Chamber → Chamber) (s : State) : (modCh n f s).engines = s.engines := rfl
@[simp] theorem modCh_coreBad (n : Nat) (f : Chamber → Chamber) (s : State) : (modCh n f s).coreBad = s.coreBad := rfl
@[simp] theorem modCh_galErr (n : Nat) (f : Chamber → Chamber) (s : State) : (modCh n f s).galErr = s.galErr := rfl
@[simp] theorem modCh_bulkKey (n : Nat) (f : Chamber → Chamber) (s : State) : (modCh n f s).bulkKey = s.bulkKey := rfl
@[simp] theorem modCh_bulkErr (n : Nat) (f : Chamber → Chamber) (s : State) : (modCh n f s).bulkErr = s.bulkErr := rfl
@[simp] theorem modCh_bar2Wait (n : Nat) (f : Chamber → Chamber) (s : State) : (modCh n f s).bar2Wait = s.bar2Wait := rfl
@[simp] theorem modCh_latching (n : Nat) (f : Chamber → Chamber) (s : State) : (modCh n f s).latching = s.latching := rfl
@[simp] theorem modCh_shadows (n : Nat) (f : Chamber → Chamber) (s : State) : (modCh n f s).shadows = s.shadows := rfl
@[simp] theorem modCh_opShadows (n : Nat) (f : Chamber → Chamber) (s : State) : (modCh n f s).opShadows = s.opShadows := rfl
@[simp] theorem modCh_hostReads (n : Nat) (f : Chamber → Chamber) (s : State) : (modCh n f s).hostReads = s.hostReads := rfl
@[simp] theorem modCh_hostWait (n : Nat) (f : Chamber → Chamber) (s : State) : (modCh n f s).hostWait = s.hostWait := rfl
@[simp] theorem modCh_merge (n : Nat) (f : Chamber → Chamber) (s : State) : (modCh n f s).merge = s.merge := rfl
@[simp] theorem modCh_img (n : Nat) (f : Chamber → Chamber) (s : State) : (modCh n f s).img = s.img := rfl
@[simp] theorem modCh_flow (n : Nat) (f : Chamber → Chamber) (s : State) : (modCh n f s).flow = s.flow := rfl
@[simp] theorem modCh_pcie (n : Nat) (f : Chamber → Chamber) (s : State) : (modCh n f s).pcie = s.pcie := rfl
@[simp] theorem modCh_power (n : Nat) (f : Chamber → Chamber) (s : State) : (modCh n f s).power = s.power := rfl
@[simp] theorem modCh_spdm (n : Nat) (f : Chamber → Chamber) (s : State) : (modCh n f s).spdm = s.spdm := rfl
@[simp] theorem modCh_coord (n : Nat) (f : Chamber → Chamber) (s : State) : (modCh n f s).coord = s.coord := rfl
@[simp] theorem modCh_banks (n : Nat) (f : Chamber → Chamber) (s : State) : (modCh n f s).banks = s.banks := rfl
@[simp] theorem modCh_mbxCmd (n : Nat) (f : Chamber → Chamber) (s : State) : (modCh n f s).mbxCmd = s.mbxCmd := rfl
@[simp] theorem modCh_jtag (n : Nat) (f : Chamber → Chamber) (s : State) : (modCh n f s).jtag = s.jtag := rfl
@[simp] theorem modCh_draws (n : Nat) (f : Chamber → Chamber) (s : State) : (modCh n f s).draws = s.draws := rfl
@[simp] theorem modCh_free (n : Nat) (f : Chamber → Chamber) (s : State) : (modCh n f s).free = s.free := rfl
@[simp] theorem modCh_out (n : Nat) (f : Chamber → Chamber) (s : State) : (modCh n f s).out = s.out := rfl
@[simp] theorem modCh_pending (n : Nat) (f : Chamber → Chamber) (s : State) : (modCh n f s).pending = s.pending := rfl

/-! ## gset -/

@[simp] theorem gset_time (off : Nat) (v : W32) (s : State) : (gset off v s).time = s.time := rfl
@[simp] theorem gset_mtb (off : Nat) (v : W32) (s : State) : (gset off v s).mtb = s.mtb := rfl
@[simp] theorem gset_chambers (off : Nat) (v : W32) (s : State) : (gset off v s).chambers = s.chambers := rfl
@[simp] theorem gset_ports (off : Nat) (v : W32) (s : State) : (gset off v s).ports = s.ports := rfl
@[simp] theorem gset_clusters (off : Nat) (v : W32) (s : State) : (gset off v s).clusters = s.clusters := rfl
@[simp] theorem gset_groups (off : Nat) (v : W32) (s : State) : (gset off v s).groups = s.groups := rfl
@[simp] theorem gset_core (off : Nat) (v : W32) (s : State) : (gset off v s).core = s.core := rfl
@[simp] theorem gset_gal (off : Nat) (v : W32) (s : State) : (gset off v s).gal = s.gal := rfl
@[simp] theorem gset_galValid (off : Nat) (v : W32) (s : State) : (gset off v s).galValid = s.galValid := rfl
@[simp] theorem gset_bulk (off : Nat) (v : W32) (s : State) : (gset off v s).bulk = s.bulk := rfl
@[simp] theorem gset_arrived (off : Nat) (v : W32) (s : State) : (gset off v s).arrived = s.arrived := rfl
@[simp] theorem gset_allocs (off : Nat) (v : W32) (s : State) : (gset off v s).allocs = s.allocs := rfl
@[simp] theorem gset_icache (off : Nat) (v : W32) (s : State) : (gset off v s).icache = s.icache := rfl
@[simp] theorem gset_engines (off : Nat) (v : W32) (s : State) : (gset off v s).engines = s.engines := rfl
@[simp] theorem gset_coreBad (off : Nat) (v : W32) (s : State) : (gset off v s).coreBad = s.coreBad := rfl
@[simp] theorem gset_galErr (off : Nat) (v : W32) (s : State) : (gset off v s).galErr = s.galErr := rfl
@[simp] theorem gset_bulkKey (off : Nat) (v : W32) (s : State) : (gset off v s).bulkKey = s.bulkKey := rfl
@[simp] theorem gset_bulkErr (off : Nat) (v : W32) (s : State) : (gset off v s).bulkErr = s.bulkErr := rfl
@[simp] theorem gset_bar2Wait (off : Nat) (v : W32) (s : State) : (gset off v s).bar2Wait = s.bar2Wait := rfl
@[simp] theorem gset_latching (off : Nat) (v : W32) (s : State) : (gset off v s).latching = s.latching := rfl
@[simp] theorem gset_shadows (off : Nat) (v : W32) (s : State) : (gset off v s).shadows = s.shadows := rfl
@[simp] theorem gset_opShadows (off : Nat) (v : W32) (s : State) : (gset off v s).opShadows = s.opShadows := rfl
@[simp] theorem gset_hostReads (off : Nat) (v : W32) (s : State) : (gset off v s).hostReads = s.hostReads := rfl
@[simp] theorem gset_hostWait (off : Nat) (v : W32) (s : State) : (gset off v s).hostWait = s.hostWait := rfl
@[simp] theorem gset_merge (off : Nat) (v : W32) (s : State) : (gset off v s).merge = s.merge := rfl
@[simp] theorem gset_img (off : Nat) (v : W32) (s : State) : (gset off v s).img = s.img := rfl
@[simp] theorem gset_flow (off : Nat) (v : W32) (s : State) : (gset off v s).flow = s.flow := rfl
@[simp] theorem gset_pcie (off : Nat) (v : W32) (s : State) : (gset off v s).pcie = s.pcie := rfl
@[simp] theorem gset_power (off : Nat) (v : W32) (s : State) : (gset off v s).power = s.power := rfl
@[simp] theorem gset_spdm (off : Nat) (v : W32) (s : State) : (gset off v s).spdm = s.spdm := rfl
@[simp] theorem gset_coord (off : Nat) (v : W32) (s : State) : (gset off v s).coord = s.coord := rfl
@[simp] theorem gset_banks (off : Nat) (v : W32) (s : State) : (gset off v s).banks = s.banks := rfl
@[simp] theorem gset_mbxCmd (off : Nat) (v : W32) (s : State) : (gset off v s).mbxCmd = s.mbxCmd := rfl
@[simp] theorem gset_jtag (off : Nat) (v : W32) (s : State) : (gset off v s).jtag = s.jtag := rfl
@[simp] theorem gset_draws (off : Nat) (v : W32) (s : State) : (gset off v s).draws = s.draws := rfl
@[simp] theorem gset_free (off : Nat) (v : W32) (s : State) : (gset off v s).free = s.free := rfl
@[simp] theorem gset_out (off : Nat) (v : W32) (s : State) : (gset off v s).out = s.out := rfl
@[simp] theorem gset_pending (off : Nat) (v : W32) (s : State) : (gset off v s).pending = s.pending := rfl

/-! ## gmod -/

@[simp] theorem gmod_time (off : Nat) (f : W32 → W32) (s : State) : (gmod off f s).time = s.time := rfl
@[simp] theorem gmod_mtb (off : Nat) (f : W32 → W32) (s : State) : (gmod off f s).mtb = s.mtb := rfl
@[simp] theorem gmod_chambers (off : Nat) (f : W32 → W32) (s : State) : (gmod off f s).chambers = s.chambers := rfl
@[simp] theorem gmod_ports (off : Nat) (f : W32 → W32) (s : State) : (gmod off f s).ports = s.ports := rfl
@[simp] theorem gmod_clusters (off : Nat) (f : W32 → W32) (s : State) : (gmod off f s).clusters = s.clusters := rfl
@[simp] theorem gmod_groups (off : Nat) (f : W32 → W32) (s : State) : (gmod off f s).groups = s.groups := rfl
@[simp] theorem gmod_core (off : Nat) (f : W32 → W32) (s : State) : (gmod off f s).core = s.core := rfl
@[simp] theorem gmod_gal (off : Nat) (f : W32 → W32) (s : State) : (gmod off f s).gal = s.gal := rfl
@[simp] theorem gmod_galValid (off : Nat) (f : W32 → W32) (s : State) : (gmod off f s).galValid = s.galValid := rfl
@[simp] theorem gmod_bulk (off : Nat) (f : W32 → W32) (s : State) : (gmod off f s).bulk = s.bulk := rfl
@[simp] theorem gmod_arrived (off : Nat) (f : W32 → W32) (s : State) : (gmod off f s).arrived = s.arrived := rfl
@[simp] theorem gmod_allocs (off : Nat) (f : W32 → W32) (s : State) : (gmod off f s).allocs = s.allocs := rfl
@[simp] theorem gmod_icache (off : Nat) (f : W32 → W32) (s : State) : (gmod off f s).icache = s.icache := rfl
@[simp] theorem gmod_engines (off : Nat) (f : W32 → W32) (s : State) : (gmod off f s).engines = s.engines := rfl
@[simp] theorem gmod_coreBad (off : Nat) (f : W32 → W32) (s : State) : (gmod off f s).coreBad = s.coreBad := rfl
@[simp] theorem gmod_galErr (off : Nat) (f : W32 → W32) (s : State) : (gmod off f s).galErr = s.galErr := rfl
@[simp] theorem gmod_bulkKey (off : Nat) (f : W32 → W32) (s : State) : (gmod off f s).bulkKey = s.bulkKey := rfl
@[simp] theorem gmod_bulkErr (off : Nat) (f : W32 → W32) (s : State) : (gmod off f s).bulkErr = s.bulkErr := rfl
@[simp] theorem gmod_bar2Wait (off : Nat) (f : W32 → W32) (s : State) : (gmod off f s).bar2Wait = s.bar2Wait := rfl
@[simp] theorem gmod_latching (off : Nat) (f : W32 → W32) (s : State) : (gmod off f s).latching = s.latching := rfl
@[simp] theorem gmod_shadows (off : Nat) (f : W32 → W32) (s : State) : (gmod off f s).shadows = s.shadows := rfl
@[simp] theorem gmod_opShadows (off : Nat) (f : W32 → W32) (s : State) : (gmod off f s).opShadows = s.opShadows := rfl
@[simp] theorem gmod_hostReads (off : Nat) (f : W32 → W32) (s : State) : (gmod off f s).hostReads = s.hostReads := rfl
@[simp] theorem gmod_hostWait (off : Nat) (f : W32 → W32) (s : State) : (gmod off f s).hostWait = s.hostWait := rfl
@[simp] theorem gmod_merge (off : Nat) (f : W32 → W32) (s : State) : (gmod off f s).merge = s.merge := rfl
@[simp] theorem gmod_img (off : Nat) (f : W32 → W32) (s : State) : (gmod off f s).img = s.img := rfl
@[simp] theorem gmod_flow (off : Nat) (f : W32 → W32) (s : State) : (gmod off f s).flow = s.flow := rfl
@[simp] theorem gmod_pcie (off : Nat) (f : W32 → W32) (s : State) : (gmod off f s).pcie = s.pcie := rfl
@[simp] theorem gmod_power (off : Nat) (f : W32 → W32) (s : State) : (gmod off f s).power = s.power := rfl
@[simp] theorem gmod_spdm (off : Nat) (f : W32 → W32) (s : State) : (gmod off f s).spdm = s.spdm := rfl
@[simp] theorem gmod_coord (off : Nat) (f : W32 → W32) (s : State) : (gmod off f s).coord = s.coord := rfl
@[simp] theorem gmod_banks (off : Nat) (f : W32 → W32) (s : State) : (gmod off f s).banks = s.banks := rfl
@[simp] theorem gmod_mbxCmd (off : Nat) (f : W32 → W32) (s : State) : (gmod off f s).mbxCmd = s.mbxCmd := rfl
@[simp] theorem gmod_jtag (off : Nat) (f : W32 → W32) (s : State) : (gmod off f s).jtag = s.jtag := rfl
@[simp] theorem gmod_draws (off : Nat) (f : W32 → W32) (s : State) : (gmod off f s).draws = s.draws := rfl
@[simp] theorem gmod_free (off : Nat) (f : W32 → W32) (s : State) : (gmod off f s).free = s.free := rfl
@[simp] theorem gmod_out (off : Nat) (f : W32 → W32) (s : State) : (gmod off f s).out = s.out := rfl
@[simp] theorem gmod_pending (off : Nat) (f : W32 → W32) (s : State) : (gmod off f s).pending = s.pending := rfl

/-! ## gsetBit -/

@[simp] theorem gsetBit_time (off i : Nat) (s : State) : (gsetBit off i s).time = s.time := rfl
@[simp] theorem gsetBit_mtb (off i : Nat) (s : State) : (gsetBit off i s).mtb = s.mtb := rfl
@[simp] theorem gsetBit_chambers (off i : Nat) (s : State) : (gsetBit off i s).chambers = s.chambers := rfl
@[simp] theorem gsetBit_ports (off i : Nat) (s : State) : (gsetBit off i s).ports = s.ports := rfl
@[simp] theorem gsetBit_clusters (off i : Nat) (s : State) : (gsetBit off i s).clusters = s.clusters := rfl
@[simp] theorem gsetBit_groups (off i : Nat) (s : State) : (gsetBit off i s).groups = s.groups := rfl
@[simp] theorem gsetBit_core (off i : Nat) (s : State) : (gsetBit off i s).core = s.core := rfl
@[simp] theorem gsetBit_gal (off i : Nat) (s : State) : (gsetBit off i s).gal = s.gal := rfl
@[simp] theorem gsetBit_galValid (off i : Nat) (s : State) : (gsetBit off i s).galValid = s.galValid := rfl
@[simp] theorem gsetBit_bulk (off i : Nat) (s : State) : (gsetBit off i s).bulk = s.bulk := rfl
@[simp] theorem gsetBit_arrived (off i : Nat) (s : State) : (gsetBit off i s).arrived = s.arrived := rfl
@[simp] theorem gsetBit_allocs (off i : Nat) (s : State) : (gsetBit off i s).allocs = s.allocs := rfl
@[simp] theorem gsetBit_icache (off i : Nat) (s : State) : (gsetBit off i s).icache = s.icache := rfl
@[simp] theorem gsetBit_engines (off i : Nat) (s : State) : (gsetBit off i s).engines = s.engines := rfl
@[simp] theorem gsetBit_coreBad (off i : Nat) (s : State) : (gsetBit off i s).coreBad = s.coreBad := rfl
@[simp] theorem gsetBit_galErr (off i : Nat) (s : State) : (gsetBit off i s).galErr = s.galErr := rfl
@[simp] theorem gsetBit_bulkKey (off i : Nat) (s : State) : (gsetBit off i s).bulkKey = s.bulkKey := rfl
@[simp] theorem gsetBit_bulkErr (off i : Nat) (s : State) : (gsetBit off i s).bulkErr = s.bulkErr := rfl
@[simp] theorem gsetBit_bar2Wait (off i : Nat) (s : State) : (gsetBit off i s).bar2Wait = s.bar2Wait := rfl
@[simp] theorem gsetBit_latching (off i : Nat) (s : State) : (gsetBit off i s).latching = s.latching := rfl
@[simp] theorem gsetBit_shadows (off i : Nat) (s : State) : (gsetBit off i s).shadows = s.shadows := rfl
@[simp] theorem gsetBit_opShadows (off i : Nat) (s : State) : (gsetBit off i s).opShadows = s.opShadows := rfl
@[simp] theorem gsetBit_hostReads (off i : Nat) (s : State) : (gsetBit off i s).hostReads = s.hostReads := rfl
@[simp] theorem gsetBit_hostWait (off i : Nat) (s : State) : (gsetBit off i s).hostWait = s.hostWait := rfl
@[simp] theorem gsetBit_merge (off i : Nat) (s : State) : (gsetBit off i s).merge = s.merge := rfl
@[simp] theorem gsetBit_img (off i : Nat) (s : State) : (gsetBit off i s).img = s.img := rfl
@[simp] theorem gsetBit_flow (off i : Nat) (s : State) : (gsetBit off i s).flow = s.flow := rfl
@[simp] theorem gsetBit_pcie (off i : Nat) (s : State) : (gsetBit off i s).pcie = s.pcie := rfl
@[simp] theorem gsetBit_power (off i : Nat) (s : State) : (gsetBit off i s).power = s.power := rfl
@[simp] theorem gsetBit_spdm (off i : Nat) (s : State) : (gsetBit off i s).spdm = s.spdm := rfl
@[simp] theorem gsetBit_coord (off i : Nat) (s : State) : (gsetBit off i s).coord = s.coord := rfl
@[simp] theorem gsetBit_banks (off i : Nat) (s : State) : (gsetBit off i s).banks = s.banks := rfl
@[simp] theorem gsetBit_mbxCmd (off i : Nat) (s : State) : (gsetBit off i s).mbxCmd = s.mbxCmd := rfl
@[simp] theorem gsetBit_jtag (off i : Nat) (s : State) : (gsetBit off i s).jtag = s.jtag := rfl
@[simp] theorem gsetBit_draws (off i : Nat) (s : State) : (gsetBit off i s).draws = s.draws := rfl
@[simp] theorem gsetBit_free (off i : Nat) (s : State) : (gsetBit off i s).free = s.free := rfl
@[simp] theorem gsetBit_out (off i : Nat) (s : State) : (gsetBit off i s).out = s.out := rfl
@[simp] theorem gsetBit_pending (off i : Nat) (s : State) : (gsetBit off i s).pending = s.pending := rfl

/-! ## bump -/

@[simp] theorem bump_time (b i k : Nat) (s : State) : (bump b i k s).time = s.time := rfl
@[simp] theorem bump_mtb (b i k : Nat) (s : State) : (bump b i k s).mtb = s.mtb := rfl
@[simp] theorem bump_g (b i k : Nat) (s : State) : (bump b i k s).g = s.g := rfl
@[simp] theorem bump_chambers (b i k : Nat) (s : State) : (bump b i k s).chambers = s.chambers := rfl
@[simp] theorem bump_ports (b i k : Nat) (s : State) : (bump b i k s).ports = s.ports := rfl
@[simp] theorem bump_clusters (b i k : Nat) (s : State) : (bump b i k s).clusters = s.clusters := rfl
@[simp] theorem bump_groups (b i k : Nat) (s : State) : (bump b i k s).groups = s.groups := rfl
@[simp] theorem bump_core (b i k : Nat) (s : State) : (bump b i k s).core = s.core := rfl
@[simp] theorem bump_gal (b i k : Nat) (s : State) : (bump b i k s).gal = s.gal := rfl
@[simp] theorem bump_galValid (b i k : Nat) (s : State) : (bump b i k s).galValid = s.galValid := rfl
@[simp] theorem bump_bulk (b i k : Nat) (s : State) : (bump b i k s).bulk = s.bulk := rfl
@[simp] theorem bump_arrived (b i k : Nat) (s : State) : (bump b i k s).arrived = s.arrived := rfl
@[simp] theorem bump_allocs (b i k : Nat) (s : State) : (bump b i k s).allocs = s.allocs := rfl
@[simp] theorem bump_icache (b i k : Nat) (s : State) : (bump b i k s).icache = s.icache := rfl
@[simp] theorem bump_engines (b i k : Nat) (s : State) : (bump b i k s).engines = s.engines := rfl
@[simp] theorem bump_coreBad (b i k : Nat) (s : State) : (bump b i k s).coreBad = s.coreBad := rfl
@[simp] theorem bump_galErr (b i k : Nat) (s : State) : (bump b i k s).galErr = s.galErr := rfl
@[simp] theorem bump_bulkKey (b i k : Nat) (s : State) : (bump b i k s).bulkKey = s.bulkKey := rfl
@[simp] theorem bump_bulkErr (b i k : Nat) (s : State) : (bump b i k s).bulkErr = s.bulkErr := rfl
@[simp] theorem bump_bar2Wait (b i k : Nat) (s : State) : (bump b i k s).bar2Wait = s.bar2Wait := rfl
@[simp] theorem bump_latching (b i k : Nat) (s : State) : (bump b i k s).latching = s.latching := rfl
@[simp] theorem bump_shadows (b i k : Nat) (s : State) : (bump b i k s).shadows = s.shadows := rfl
@[simp] theorem bump_opShadows (b i k : Nat) (s : State) : (bump b i k s).opShadows = s.opShadows := rfl
@[simp] theorem bump_hostReads (b i k : Nat) (s : State) : (bump b i k s).hostReads = s.hostReads := rfl
@[simp] theorem bump_hostWait (b i k : Nat) (s : State) : (bump b i k s).hostWait = s.hostWait := rfl
@[simp] theorem bump_merge (b i k : Nat) (s : State) : (bump b i k s).merge = s.merge := rfl
@[simp] theorem bump_img (b i k : Nat) (s : State) : (bump b i k s).img = s.img := rfl
@[simp] theorem bump_flow (b i k : Nat) (s : State) : (bump b i k s).flow = s.flow := rfl
@[simp] theorem bump_pcie (b i k : Nat) (s : State) : (bump b i k s).pcie = s.pcie := rfl
@[simp] theorem bump_power (b i k : Nat) (s : State) : (bump b i k s).power = s.power := rfl
@[simp] theorem bump_spdm (b i k : Nat) (s : State) : (bump b i k s).spdm = s.spdm := rfl
@[simp] theorem bump_coord (b i k : Nat) (s : State) : (bump b i k s).coord = s.coord := rfl
@[simp] theorem bump_mbxCmd (b i k : Nat) (s : State) : (bump b i k s).mbxCmd = s.mbxCmd := rfl
@[simp] theorem bump_jtag (b i k : Nat) (s : State) : (bump b i k s).jtag = s.jtag := rfl
@[simp] theorem bump_draws (b i k : Nat) (s : State) : (bump b i k s).draws = s.draws := rfl
@[simp] theorem bump_free (b i k : Nat) (s : State) : (bump b i k s).free = s.free := rfl
@[simp] theorem bump_out (b i k : Nat) (s : State) : (bump b i k s).out = s.out := rfl
@[simp] theorem bump_pending (b i k : Nat) (s : State) : (bump b i k s).pending = s.pending := rfl

/-! ## bumpCh -/

@[simp] theorem bumpCh_time (n i k : Nat) (s : State) : (bumpCh n i k s).time = s.time := rfl
@[simp] theorem bumpCh_mtb (n i k : Nat) (s : State) : (bumpCh n i k s).mtb = s.mtb := rfl
@[simp] theorem bumpCh_g (n i k : Nat) (s : State) : (bumpCh n i k s).g = s.g := rfl
@[simp] theorem bumpCh_chambers (n i k : Nat) (s : State) : (bumpCh n i k s).chambers = s.chambers := rfl
@[simp] theorem bumpCh_ports (n i k : Nat) (s : State) : (bumpCh n i k s).ports = s.ports := rfl
@[simp] theorem bumpCh_clusters (n i k : Nat) (s : State) : (bumpCh n i k s).clusters = s.clusters := rfl
@[simp] theorem bumpCh_groups (n i k : Nat) (s : State) : (bumpCh n i k s).groups = s.groups := rfl
@[simp] theorem bumpCh_core (n i k : Nat) (s : State) : (bumpCh n i k s).core = s.core := rfl
@[simp] theorem bumpCh_gal (n i k : Nat) (s : State) : (bumpCh n i k s).gal = s.gal := rfl
@[simp] theorem bumpCh_galValid (n i k : Nat) (s : State) : (bumpCh n i k s).galValid = s.galValid := rfl
@[simp] theorem bumpCh_bulk (n i k : Nat) (s : State) : (bumpCh n i k s).bulk = s.bulk := rfl
@[simp] theorem bumpCh_arrived (n i k : Nat) (s : State) : (bumpCh n i k s).arrived = s.arrived := rfl
@[simp] theorem bumpCh_allocs (n i k : Nat) (s : State) : (bumpCh n i k s).allocs = s.allocs := rfl
@[simp] theorem bumpCh_icache (n i k : Nat) (s : State) : (bumpCh n i k s).icache = s.icache := rfl
@[simp] theorem bumpCh_engines (n i k : Nat) (s : State) : (bumpCh n i k s).engines = s.engines := rfl
@[simp] theorem bumpCh_coreBad (n i k : Nat) (s : State) : (bumpCh n i k s).coreBad = s.coreBad := rfl
@[simp] theorem bumpCh_galErr (n i k : Nat) (s : State) : (bumpCh n i k s).galErr = s.galErr := rfl
@[simp] theorem bumpCh_bulkKey (n i k : Nat) (s : State) : (bumpCh n i k s).bulkKey = s.bulkKey := rfl
@[simp] theorem bumpCh_bulkErr (n i k : Nat) (s : State) : (bumpCh n i k s).bulkErr = s.bulkErr := rfl
@[simp] theorem bumpCh_bar2Wait (n i k : Nat) (s : State) : (bumpCh n i k s).bar2Wait = s.bar2Wait := rfl
@[simp] theorem bumpCh_latching (n i k : Nat) (s : State) : (bumpCh n i k s).latching = s.latching := rfl
@[simp] theorem bumpCh_shadows (n i k : Nat) (s : State) : (bumpCh n i k s).shadows = s.shadows := rfl
@[simp] theorem bumpCh_opShadows (n i k : Nat) (s : State) : (bumpCh n i k s).opShadows = s.opShadows := rfl
@[simp] theorem bumpCh_hostReads (n i k : Nat) (s : State) : (bumpCh n i k s).hostReads = s.hostReads := rfl
@[simp] theorem bumpCh_hostWait (n i k : Nat) (s : State) : (bumpCh n i k s).hostWait = s.hostWait := rfl
@[simp] theorem bumpCh_merge (n i k : Nat) (s : State) : (bumpCh n i k s).merge = s.merge := rfl
@[simp] theorem bumpCh_img (n i k : Nat) (s : State) : (bumpCh n i k s).img = s.img := rfl
@[simp] theorem bumpCh_flow (n i k : Nat) (s : State) : (bumpCh n i k s).flow = s.flow := rfl
@[simp] theorem bumpCh_pcie (n i k : Nat) (s : State) : (bumpCh n i k s).pcie = s.pcie := rfl
@[simp] theorem bumpCh_power (n i k : Nat) (s : State) : (bumpCh n i k s).power = s.power := rfl
@[simp] theorem bumpCh_spdm (n i k : Nat) (s : State) : (bumpCh n i k s).spdm = s.spdm := rfl
@[simp] theorem bumpCh_coord (n i k : Nat) (s : State) : (bumpCh n i k s).coord = s.coord := rfl
@[simp] theorem bumpCh_mbxCmd (n i k : Nat) (s : State) : (bumpCh n i k s).mbxCmd = s.mbxCmd := rfl
@[simp] theorem bumpCh_jtag (n i k : Nat) (s : State) : (bumpCh n i k s).jtag = s.jtag := rfl
@[simp] theorem bumpCh_draws (n i k : Nat) (s : State) : (bumpCh n i k s).draws = s.draws := rfl
@[simp] theorem bumpCh_free (n i k : Nat) (s : State) : (bumpCh n i k s).free = s.free := rfl
@[simp] theorem bumpCh_out (n i k : Nat) (s : State) : (bumpCh n i k s).out = s.out := rfl
@[simp] theorem bumpCh_pending (n i k : Nat) (s : State) : (bumpCh n i k s).pending = s.pending := rfl

/-! ## emit -/

@[simp] theorem emit_time (o : Out) (s : State) : (emit o s).time = s.time := rfl
@[simp] theorem emit_mtb (o : Out) (s : State) : (emit o s).mtb = s.mtb := rfl
@[simp] theorem emit_g (o : Out) (s : State) : (emit o s).g = s.g := rfl
@[simp] theorem emit_chambers (o : Out) (s : State) : (emit o s).chambers = s.chambers := rfl
@[simp] theorem emit_ports (o : Out) (s : State) : (emit o s).ports = s.ports := rfl
@[simp] theorem emit_clusters (o : Out) (s : State) : (emit o s).clusters = s.clusters := rfl
@[simp] theorem emit_groups (o : Out) (s : State) : (emit o s).groups = s.groups := rfl
@[simp] theorem emit_core (o : Out) (s : State) : (emit o s).core = s.core := rfl
@[simp] theorem emit_gal (o : Out) (s : State) : (emit o s).gal = s.gal := rfl
@[simp] theorem emit_galValid (o : Out) (s : State) : (emit o s).galValid = s.galValid := rfl
@[simp] theorem emit_bulk (o : Out) (s : State) : (emit o s).bulk = s.bulk := rfl
@[simp] theorem emit_arrived (o : Out) (s : State) : (emit o s).arrived = s.arrived := rfl
@[simp] theorem emit_allocs (o : Out) (s : State) : (emit o s).allocs = s.allocs := rfl
@[simp] theorem emit_icache (o : Out) (s : State) : (emit o s).icache = s.icache := rfl
@[simp] theorem emit_engines (o : Out) (s : State) : (emit o s).engines = s.engines := rfl
@[simp] theorem emit_coreBad (o : Out) (s : State) : (emit o s).coreBad = s.coreBad := rfl
@[simp] theorem emit_galErr (o : Out) (s : State) : (emit o s).galErr = s.galErr := rfl
@[simp] theorem emit_bulkKey (o : Out) (s : State) : (emit o s).bulkKey = s.bulkKey := rfl
@[simp] theorem emit_bulkErr (o : Out) (s : State) : (emit o s).bulkErr = s.bulkErr := rfl
@[simp] theorem emit_bar2Wait (o : Out) (s : State) : (emit o s).bar2Wait = s.bar2Wait := rfl
@[simp] theorem emit_latching (o : Out) (s : State) : (emit o s).latching = s.latching := rfl
@[simp] theorem emit_shadows (o : Out) (s : State) : (emit o s).shadows = s.shadows := rfl
@[simp] theorem emit_opShadows (o : Out) (s : State) : (emit o s).opShadows = s.opShadows := rfl
@[simp] theorem emit_hostReads (o : Out) (s : State) : (emit o s).hostReads = s.hostReads := rfl
@[simp] theorem emit_hostWait (o : Out) (s : State) : (emit o s).hostWait = s.hostWait := rfl
@[simp] theorem emit_merge (o : Out) (s : State) : (emit o s).merge = s.merge := rfl
@[simp] theorem emit_img (o : Out) (s : State) : (emit o s).img = s.img := rfl
@[simp] theorem emit_flow (o : Out) (s : State) : (emit o s).flow = s.flow := rfl
@[simp] theorem emit_pcie (o : Out) (s : State) : (emit o s).pcie = s.pcie := rfl
@[simp] theorem emit_power (o : Out) (s : State) : (emit o s).power = s.power := rfl
@[simp] theorem emit_spdm (o : Out) (s : State) : (emit o s).spdm = s.spdm := rfl
@[simp] theorem emit_coord (o : Out) (s : State) : (emit o s).coord = s.coord := rfl
@[simp] theorem emit_banks (o : Out) (s : State) : (emit o s).banks = s.banks := rfl
@[simp] theorem emit_mbxCmd (o : Out) (s : State) : (emit o s).mbxCmd = s.mbxCmd := rfl
@[simp] theorem emit_jtag (o : Out) (s : State) : (emit o s).jtag = s.jtag := rfl
@[simp] theorem emit_draws (o : Out) (s : State) : (emit o s).draws = s.draws := rfl
@[simp] theorem emit_free (o : Out) (s : State) : (emit o s).free = s.free := rfl
@[simp] theorem emit_pending (o : Out) (s : State) : (emit o s).pending = s.pending := rfl

/-! ## modPcie -/

@[simp] theorem modPcie_time (f : Pcie → Pcie) (s : State) : (modPcie f s).time = s.time := rfl
@[simp] theorem modPcie_mtb (f : Pcie → Pcie) (s : State) : (modPcie f s).mtb = s.mtb := rfl
@[simp] theorem modPcie_g (f : Pcie → Pcie) (s : State) : (modPcie f s).g = s.g := rfl
@[simp] theorem modPcie_chambers (f : Pcie → Pcie) (s : State) : (modPcie f s).chambers = s.chambers := rfl
@[simp] theorem modPcie_ports (f : Pcie → Pcie) (s : State) : (modPcie f s).ports = s.ports := rfl
@[simp] theorem modPcie_clusters (f : Pcie → Pcie) (s : State) : (modPcie f s).clusters = s.clusters := rfl
@[simp] theorem modPcie_groups (f : Pcie → Pcie) (s : State) : (modPcie f s).groups = s.groups := rfl
@[simp] theorem modPcie_core (f : Pcie → Pcie) (s : State) : (modPcie f s).core = s.core := rfl
@[simp] theorem modPcie_gal (f : Pcie → Pcie) (s : State) : (modPcie f s).gal = s.gal := rfl
@[simp] theorem modPcie_galValid (f : Pcie → Pcie) (s : State) : (modPcie f s).galValid = s.galValid := rfl
@[simp] theorem modPcie_bulk (f : Pcie → Pcie) (s : State) : (modPcie f s).bulk = s.bulk := rfl
@[simp] theorem modPcie_arrived (f : Pcie → Pcie) (s : State) : (modPcie f s).arrived = s.arrived := rfl
@[simp] theorem modPcie_allocs (f : Pcie → Pcie) (s : State) : (modPcie f s).allocs = s.allocs := rfl
@[simp] theorem modPcie_icache (f : Pcie → Pcie) (s : State) : (modPcie f s).icache = s.icache := rfl
@[simp] theorem modPcie_engines (f : Pcie → Pcie) (s : State) : (modPcie f s).engines = s.engines := rfl
@[simp] theorem modPcie_coreBad (f : Pcie → Pcie) (s : State) : (modPcie f s).coreBad = s.coreBad := rfl
@[simp] theorem modPcie_galErr (f : Pcie → Pcie) (s : State) : (modPcie f s).galErr = s.galErr := rfl
@[simp] theorem modPcie_bulkKey (f : Pcie → Pcie) (s : State) : (modPcie f s).bulkKey = s.bulkKey := rfl
@[simp] theorem modPcie_bulkErr (f : Pcie → Pcie) (s : State) : (modPcie f s).bulkErr = s.bulkErr := rfl
@[simp] theorem modPcie_bar2Wait (f : Pcie → Pcie) (s : State) : (modPcie f s).bar2Wait = s.bar2Wait := rfl
@[simp] theorem modPcie_latching (f : Pcie → Pcie) (s : State) : (modPcie f s).latching = s.latching := rfl
@[simp] theorem modPcie_shadows (f : Pcie → Pcie) (s : State) : (modPcie f s).shadows = s.shadows := rfl
@[simp] theorem modPcie_opShadows (f : Pcie → Pcie) (s : State) : (modPcie f s).opShadows = s.opShadows := rfl
@[simp] theorem modPcie_hostReads (f : Pcie → Pcie) (s : State) : (modPcie f s).hostReads = s.hostReads := rfl
@[simp] theorem modPcie_hostWait (f : Pcie → Pcie) (s : State) : (modPcie f s).hostWait = s.hostWait := rfl
@[simp] theorem modPcie_merge (f : Pcie → Pcie) (s : State) : (modPcie f s).merge = s.merge := rfl
@[simp] theorem modPcie_img (f : Pcie → Pcie) (s : State) : (modPcie f s).img = s.img := rfl
@[simp] theorem modPcie_flow (f : Pcie → Pcie) (s : State) : (modPcie f s).flow = s.flow := rfl
@[simp] theorem modPcie_power (f : Pcie → Pcie) (s : State) : (modPcie f s).power = s.power := rfl
@[simp] theorem modPcie_spdm (f : Pcie → Pcie) (s : State) : (modPcie f s).spdm = s.spdm := rfl
@[simp] theorem modPcie_coord (f : Pcie → Pcie) (s : State) : (modPcie f s).coord = s.coord := rfl
@[simp] theorem modPcie_banks (f : Pcie → Pcie) (s : State) : (modPcie f s).banks = s.banks := rfl
@[simp] theorem modPcie_mbxCmd (f : Pcie → Pcie) (s : State) : (modPcie f s).mbxCmd = s.mbxCmd := rfl
@[simp] theorem modPcie_jtag (f : Pcie → Pcie) (s : State) : (modPcie f s).jtag = s.jtag := rfl
@[simp] theorem modPcie_draws (f : Pcie → Pcie) (s : State) : (modPcie f s).draws = s.draws := rfl
@[simp] theorem modPcie_free (f : Pcie → Pcie) (s : State) : (modPcie f s).free = s.free := rfl
@[simp] theorem modPcie_out (f : Pcie → Pcie) (s : State) : (modPcie f s).out = s.out := rfl
@[simp] theorem modPcie_pending (f : Pcie → Pcie) (s : State) : (modPcie f s).pending = s.pending := rfl

/-! ## modPower -/

@[simp] theorem modPower_time (f : Power → Power) (s : State) : (modPower f s).time = s.time := rfl
@[simp] theorem modPower_mtb (f : Power → Power) (s : State) : (modPower f s).mtb = s.mtb := rfl
@[simp] theorem modPower_g (f : Power → Power) (s : State) : (modPower f s).g = s.g := rfl
@[simp] theorem modPower_chambers (f : Power → Power) (s : State) : (modPower f s).chambers = s.chambers := rfl
@[simp] theorem modPower_ports (f : Power → Power) (s : State) : (modPower f s).ports = s.ports := rfl
@[simp] theorem modPower_clusters (f : Power → Power) (s : State) : (modPower f s).clusters = s.clusters := rfl
@[simp] theorem modPower_groups (f : Power → Power) (s : State) : (modPower f s).groups = s.groups := rfl
@[simp] theorem modPower_core (f : Power → Power) (s : State) : (modPower f s).core = s.core := rfl
@[simp] theorem modPower_gal (f : Power → Power) (s : State) : (modPower f s).gal = s.gal := rfl
@[simp] theorem modPower_galValid (f : Power → Power) (s : State) : (modPower f s).galValid = s.galValid := rfl
@[simp] theorem modPower_bulk (f : Power → Power) (s : State) : (modPower f s).bulk = s.bulk := rfl
@[simp] theorem modPower_arrived (f : Power → Power) (s : State) : (modPower f s).arrived = s.arrived := rfl
@[simp] theorem modPower_allocs (f : Power → Power) (s : State) : (modPower f s).allocs = s.allocs := rfl
@[simp] theorem modPower_icache (f : Power → Power) (s : State) : (modPower f s).icache = s.icache := rfl
@[simp] theorem modPower_engines (f : Power → Power) (s : State) : (modPower f s).engines = s.engines := rfl
@[simp] theorem modPower_coreBad (f : Power → Power) (s : State) : (modPower f s).coreBad = s.coreBad := rfl
@[simp] theorem modPower_galErr (f : Power → Power) (s : State) : (modPower f s).galErr = s.galErr := rfl
@[simp] theorem modPower_bulkKey (f : Power → Power) (s : State) : (modPower f s).bulkKey = s.bulkKey := rfl
@[simp] theorem modPower_bulkErr (f : Power → Power) (s : State) : (modPower f s).bulkErr = s.bulkErr := rfl
@[simp] theorem modPower_bar2Wait (f : Power → Power) (s : State) : (modPower f s).bar2Wait = s.bar2Wait := rfl
@[simp] theorem modPower_latching (f : Power → Power) (s : State) : (modPower f s).latching = s.latching := rfl
@[simp] theorem modPower_shadows (f : Power → Power) (s : State) : (modPower f s).shadows = s.shadows := rfl
@[simp] theorem modPower_opShadows (f : Power → Power) (s : State) : (modPower f s).opShadows = s.opShadows := rfl
@[simp] theorem modPower_hostReads (f : Power → Power) (s : State) : (modPower f s).hostReads = s.hostReads := rfl
@[simp] theorem modPower_hostWait (f : Power → Power) (s : State) : (modPower f s).hostWait = s.hostWait := rfl
@[simp] theorem modPower_merge (f : Power → Power) (s : State) : (modPower f s).merge = s.merge := rfl
@[simp] theorem modPower_img (f : Power → Power) (s : State) : (modPower f s).img = s.img := rfl
@[simp] theorem modPower_flow (f : Power → Power) (s : State) : (modPower f s).flow = s.flow := rfl
@[simp] theorem modPower_pcie (f : Power → Power) (s : State) : (modPower f s).pcie = s.pcie := rfl
@[simp] theorem modPower_spdm (f : Power → Power) (s : State) : (modPower f s).spdm = s.spdm := rfl
@[simp] theorem modPower_coord (f : Power → Power) (s : State) : (modPower f s).coord = s.coord := rfl
@[simp] theorem modPower_banks (f : Power → Power) (s : State) : (modPower f s).banks = s.banks := rfl
@[simp] theorem modPower_mbxCmd (f : Power → Power) (s : State) : (modPower f s).mbxCmd = s.mbxCmd := rfl
@[simp] theorem modPower_jtag (f : Power → Power) (s : State) : (modPower f s).jtag = s.jtag := rfl
@[simp] theorem modPower_draws (f : Power → Power) (s : State) : (modPower f s).draws = s.draws := rfl
@[simp] theorem modPower_free (f : Power → Power) (s : State) : (modPower f s).free = s.free := rfl
@[simp] theorem modPower_out (f : Power → Power) (s : State) : (modPower f s).out = s.out := rfl
@[simp] theorem modPower_pending (f : Power → Power) (s : State) : (modPower f s).pending = s.pending := rfl

/-! ## modSpdm -/

@[simp] theorem modSpdm_time (f : Spdm → Spdm) (s : State) : (modSpdm f s).time = s.time := rfl
@[simp] theorem modSpdm_mtb (f : Spdm → Spdm) (s : State) : (modSpdm f s).mtb = s.mtb := rfl
@[simp] theorem modSpdm_g (f : Spdm → Spdm) (s : State) : (modSpdm f s).g = s.g := rfl
@[simp] theorem modSpdm_chambers (f : Spdm → Spdm) (s : State) : (modSpdm f s).chambers = s.chambers := rfl
@[simp] theorem modSpdm_ports (f : Spdm → Spdm) (s : State) : (modSpdm f s).ports = s.ports := rfl
@[simp] theorem modSpdm_clusters (f : Spdm → Spdm) (s : State) : (modSpdm f s).clusters = s.clusters := rfl
@[simp] theorem modSpdm_groups (f : Spdm → Spdm) (s : State) : (modSpdm f s).groups = s.groups := rfl
@[simp] theorem modSpdm_core (f : Spdm → Spdm) (s : State) : (modSpdm f s).core = s.core := rfl
@[simp] theorem modSpdm_gal (f : Spdm → Spdm) (s : State) : (modSpdm f s).gal = s.gal := rfl
@[simp] theorem modSpdm_galValid (f : Spdm → Spdm) (s : State) : (modSpdm f s).galValid = s.galValid := rfl
@[simp] theorem modSpdm_bulk (f : Spdm → Spdm) (s : State) : (modSpdm f s).bulk = s.bulk := rfl
@[simp] theorem modSpdm_arrived (f : Spdm → Spdm) (s : State) : (modSpdm f s).arrived = s.arrived := rfl
@[simp] theorem modSpdm_allocs (f : Spdm → Spdm) (s : State) : (modSpdm f s).allocs = s.allocs := rfl
@[simp] theorem modSpdm_icache (f : Spdm → Spdm) (s : State) : (modSpdm f s).icache = s.icache := rfl
@[simp] theorem modSpdm_engines (f : Spdm → Spdm) (s : State) : (modSpdm f s).engines = s.engines := rfl
@[simp] theorem modSpdm_coreBad (f : Spdm → Spdm) (s : State) : (modSpdm f s).coreBad = s.coreBad := rfl
@[simp] theorem modSpdm_galErr (f : Spdm → Spdm) (s : State) : (modSpdm f s).galErr = s.galErr := rfl
@[simp] theorem modSpdm_bulkKey (f : Spdm → Spdm) (s : State) : (modSpdm f s).bulkKey = s.bulkKey := rfl
@[simp] theorem modSpdm_bulkErr (f : Spdm → Spdm) (s : State) : (modSpdm f s).bulkErr = s.bulkErr := rfl
@[simp] theorem modSpdm_bar2Wait (f : Spdm → Spdm) (s : State) : (modSpdm f s).bar2Wait = s.bar2Wait := rfl
@[simp] theorem modSpdm_latching (f : Spdm → Spdm) (s : State) : (modSpdm f s).latching = s.latching := rfl
@[simp] theorem modSpdm_shadows (f : Spdm → Spdm) (s : State) : (modSpdm f s).shadows = s.shadows := rfl
@[simp] theorem modSpdm_opShadows (f : Spdm → Spdm) (s : State) : (modSpdm f s).opShadows = s.opShadows := rfl
@[simp] theorem modSpdm_hostReads (f : Spdm → Spdm) (s : State) : (modSpdm f s).hostReads = s.hostReads := rfl
@[simp] theorem modSpdm_hostWait (f : Spdm → Spdm) (s : State) : (modSpdm f s).hostWait = s.hostWait := rfl
@[simp] theorem modSpdm_merge (f : Spdm → Spdm) (s : State) : (modSpdm f s).merge = s.merge := rfl
@[simp] theorem modSpdm_img (f : Spdm → Spdm) (s : State) : (modSpdm f s).img = s.img := rfl
@[simp] theorem modSpdm_flow (f : Spdm → Spdm) (s : State) : (modSpdm f s).flow = s.flow := rfl
@[simp] theorem modSpdm_pcie (f : Spdm → Spdm) (s : State) : (modSpdm f s).pcie = s.pcie := rfl
@[simp] theorem modSpdm_power (f : Spdm → Spdm) (s : State) : (modSpdm f s).power = s.power := rfl
@[simp] theorem modSpdm_coord (f : Spdm → Spdm) (s : State) : (modSpdm f s).coord = s.coord := rfl
@[simp] theorem modSpdm_banks (f : Spdm → Spdm) (s : State) : (modSpdm f s).banks = s.banks := rfl
@[simp] theorem modSpdm_mbxCmd (f : Spdm → Spdm) (s : State) : (modSpdm f s).mbxCmd = s.mbxCmd := rfl
@[simp] theorem modSpdm_jtag (f : Spdm → Spdm) (s : State) : (modSpdm f s).jtag = s.jtag := rfl
@[simp] theorem modSpdm_draws (f : Spdm → Spdm) (s : State) : (modSpdm f s).draws = s.draws := rfl
@[simp] theorem modSpdm_free (f : Spdm → Spdm) (s : State) : (modSpdm f s).free = s.free := rfl
@[simp] theorem modSpdm_out (f : Spdm → Spdm) (s : State) : (modSpdm f s).out = s.out := rfl
@[simp] theorem modSpdm_pending (f : Spdm → Spdm) (s : State) : (modSpdm f s).pending = s.pending := rfl

/-! ## setPort -/

@[simp] theorem setPort_time (p : Nat) (q : Port) (s : State) : (setPort p q s).time = s.time := rfl
@[simp] theorem setPort_mtb (p : Nat) (q : Port) (s : State) : (setPort p q s).mtb = s.mtb := rfl
@[simp] theorem setPort_g (p : Nat) (q : Port) (s : State) : (setPort p q s).g = s.g := rfl
@[simp] theorem setPort_chambers (p : Nat) (q : Port) (s : State) : (setPort p q s).chambers = s.chambers := rfl
@[simp] theorem setPort_clusters (p : Nat) (q : Port) (s : State) : (setPort p q s).clusters = s.clusters := rfl
@[simp] theorem setPort_groups (p : Nat) (q : Port) (s : State) : (setPort p q s).groups = s.groups := rfl
@[simp] theorem setPort_core (p : Nat) (q : Port) (s : State) : (setPort p q s).core = s.core := rfl
@[simp] theorem setPort_gal (p : Nat) (q : Port) (s : State) : (setPort p q s).gal = s.gal := rfl
@[simp] theorem setPort_galValid (p : Nat) (q : Port) (s : State) : (setPort p q s).galValid = s.galValid := rfl
@[simp] theorem setPort_bulk (p : Nat) (q : Port) (s : State) : (setPort p q s).bulk = s.bulk := rfl
@[simp] theorem setPort_arrived (p : Nat) (q : Port) (s : State) : (setPort p q s).arrived = s.arrived := rfl
@[simp] theorem setPort_allocs (p : Nat) (q : Port) (s : State) : (setPort p q s).allocs = s.allocs := rfl
@[simp] theorem setPort_icache (p : Nat) (q : Port) (s : State) : (setPort p q s).icache = s.icache := rfl
@[simp] theorem setPort_engines (p : Nat) (q : Port) (s : State) : (setPort p q s).engines = s.engines := rfl
@[simp] theorem setPort_coreBad (p : Nat) (q : Port) (s : State) : (setPort p q s).coreBad = s.coreBad := rfl
@[simp] theorem setPort_galErr (p : Nat) (q : Port) (s : State) : (setPort p q s).galErr = s.galErr := rfl
@[simp] theorem setPort_bulkKey (p : Nat) (q : Port) (s : State) : (setPort p q s).bulkKey = s.bulkKey := rfl
@[simp] theorem setPort_bulkErr (p : Nat) (q : Port) (s : State) : (setPort p q s).bulkErr = s.bulkErr := rfl
@[simp] theorem setPort_bar2Wait (p : Nat) (q : Port) (s : State) : (setPort p q s).bar2Wait = s.bar2Wait := rfl
@[simp] theorem setPort_latching (p : Nat) (q : Port) (s : State) : (setPort p q s).latching = s.latching := rfl
@[simp] theorem setPort_shadows (p : Nat) (q : Port) (s : State) : (setPort p q s).shadows = s.shadows := rfl
@[simp] theorem setPort_opShadows (p : Nat) (q : Port) (s : State) : (setPort p q s).opShadows = s.opShadows := rfl
@[simp] theorem setPort_hostReads (p : Nat) (q : Port) (s : State) : (setPort p q s).hostReads = s.hostReads := rfl
@[simp] theorem setPort_hostWait (p : Nat) (q : Port) (s : State) : (setPort p q s).hostWait = s.hostWait := rfl
@[simp] theorem setPort_merge (p : Nat) (q : Port) (s : State) : (setPort p q s).merge = s.merge := rfl
@[simp] theorem setPort_img (p : Nat) (q : Port) (s : State) : (setPort p q s).img = s.img := rfl
@[simp] theorem setPort_flow (p : Nat) (q : Port) (s : State) : (setPort p q s).flow = s.flow := rfl
@[simp] theorem setPort_pcie (p : Nat) (q : Port) (s : State) : (setPort p q s).pcie = s.pcie := rfl
@[simp] theorem setPort_power (p : Nat) (q : Port) (s : State) : (setPort p q s).power = s.power := rfl
@[simp] theorem setPort_spdm (p : Nat) (q : Port) (s : State) : (setPort p q s).spdm = s.spdm := rfl
@[simp] theorem setPort_coord (p : Nat) (q : Port) (s : State) : (setPort p q s).coord = s.coord := rfl
@[simp] theorem setPort_banks (p : Nat) (q : Port) (s : State) : (setPort p q s).banks = s.banks := rfl
@[simp] theorem setPort_mbxCmd (p : Nat) (q : Port) (s : State) : (setPort p q s).mbxCmd = s.mbxCmd := rfl
@[simp] theorem setPort_jtag (p : Nat) (q : Port) (s : State) : (setPort p q s).jtag = s.jtag := rfl
@[simp] theorem setPort_draws (p : Nat) (q : Port) (s : State) : (setPort p q s).draws = s.draws := rfl
@[simp] theorem setPort_free (p : Nat) (q : Port) (s : State) : (setPort p q s).free = s.free := rfl
@[simp] theorem setPort_out (p : Nat) (q : Port) (s : State) : (setPort p q s).out = s.out := rfl
@[simp] theorem setPort_pending (p : Nat) (q : Port) (s : State) : (setPort p q s).pending = s.pending := rfl

/-! ## setCluster -/

@[simp] theorem setCluster_time (c : Nat) (k : Cluster) (s : State) : (setCluster c k s).time = s.time := rfl
@[simp] theorem setCluster_mtb (c : Nat) (k : Cluster) (s : State) : (setCluster c k s).mtb = s.mtb := rfl
@[simp] theorem setCluster_g (c : Nat) (k : Cluster) (s : State) : (setCluster c k s).g = s.g := rfl
@[simp] theorem setCluster_chambers (c : Nat) (k : Cluster) (s : State) : (setCluster c k s).chambers = s.chambers := rfl
@[simp] theorem setCluster_ports (c : Nat) (k : Cluster) (s : State) : (setCluster c k s).ports = s.ports := rfl
@[simp] theorem setCluster_groups (c : Nat) (k : Cluster) (s : State) : (setCluster c k s).groups = s.groups := rfl
@[simp] theorem setCluster_core (c : Nat) (k : Cluster) (s : State) : (setCluster c k s).core = s.core := rfl
@[simp] theorem setCluster_gal (c : Nat) (k : Cluster) (s : State) : (setCluster c k s).gal = s.gal := rfl
@[simp] theorem setCluster_galValid (c : Nat) (k : Cluster) (s : State) : (setCluster c k s).galValid = s.galValid := rfl
@[simp] theorem setCluster_bulk (c : Nat) (k : Cluster) (s : State) : (setCluster c k s).bulk = s.bulk := rfl
@[simp] theorem setCluster_arrived (c : Nat) (k : Cluster) (s : State) : (setCluster c k s).arrived = s.arrived := rfl
@[simp] theorem setCluster_allocs (c : Nat) (k : Cluster) (s : State) : (setCluster c k s).allocs = s.allocs := rfl
@[simp] theorem setCluster_icache (c : Nat) (k : Cluster) (s : State) : (setCluster c k s).icache = s.icache := rfl
@[simp] theorem setCluster_engines (c : Nat) (k : Cluster) (s : State) : (setCluster c k s).engines = s.engines := rfl
@[simp] theorem setCluster_coreBad (c : Nat) (k : Cluster) (s : State) : (setCluster c k s).coreBad = s.coreBad := rfl
@[simp] theorem setCluster_galErr (c : Nat) (k : Cluster) (s : State) : (setCluster c k s).galErr = s.galErr := rfl
@[simp] theorem setCluster_bulkKey (c : Nat) (k : Cluster) (s : State) : (setCluster c k s).bulkKey = s.bulkKey := rfl
@[simp] theorem setCluster_bulkErr (c : Nat) (k : Cluster) (s : State) : (setCluster c k s).bulkErr = s.bulkErr := rfl
@[simp] theorem setCluster_bar2Wait (c : Nat) (k : Cluster) (s : State) : (setCluster c k s).bar2Wait = s.bar2Wait := rfl
@[simp] theorem setCluster_latching (c : Nat) (k : Cluster) (s : State) : (setCluster c k s).latching = s.latching := rfl
@[simp] theorem setCluster_shadows (c : Nat) (k : Cluster) (s : State) : (setCluster c k s).shadows = s.shadows := rfl
@[simp] theorem setCluster_opShadows (c : Nat) (k : Cluster) (s : State) : (setCluster c k s).opShadows = s.opShadows := rfl
@[simp] theorem setCluster_hostReads (c : Nat) (k : Cluster) (s : State) : (setCluster c k s).hostReads = s.hostReads := rfl
@[simp] theorem setCluster_hostWait (c : Nat) (k : Cluster) (s : State) : (setCluster c k s).hostWait = s.hostWait := rfl
@[simp] theorem setCluster_merge (c : Nat) (k : Cluster) (s : State) : (setCluster c k s).merge = s.merge := rfl
@[simp] theorem setCluster_img (c : Nat) (k : Cluster) (s : State) : (setCluster c k s).img = s.img := rfl
@[simp] theorem setCluster_flow (c : Nat) (k : Cluster) (s : State) : (setCluster c k s).flow = s.flow := rfl
@[simp] theorem setCluster_pcie (c : Nat) (k : Cluster) (s : State) : (setCluster c k s).pcie = s.pcie := rfl
@[simp] theorem setCluster_power (c : Nat) (k : Cluster) (s : State) : (setCluster c k s).power = s.power := rfl
@[simp] theorem setCluster_spdm (c : Nat) (k : Cluster) (s : State) : (setCluster c k s).spdm = s.spdm := rfl
@[simp] theorem setCluster_coord (c : Nat) (k : Cluster) (s : State) : (setCluster c k s).coord = s.coord := rfl
@[simp] theorem setCluster_banks (c : Nat) (k : Cluster) (s : State) : (setCluster c k s).banks = s.banks := rfl
@[simp] theorem setCluster_mbxCmd (c : Nat) (k : Cluster) (s : State) : (setCluster c k s).mbxCmd = s.mbxCmd := rfl
@[simp] theorem setCluster_jtag (c : Nat) (k : Cluster) (s : State) : (setCluster c k s).jtag = s.jtag := rfl
@[simp] theorem setCluster_draws (c : Nat) (k : Cluster) (s : State) : (setCluster c k s).draws = s.draws := rfl
@[simp] theorem setCluster_free (c : Nat) (k : Cluster) (s : State) : (setCluster c k s).free = s.free := rfl
@[simp] theorem setCluster_out (c : Nat) (k : Cluster) (s : State) : (setCluster c k s).out = s.out := rfl
@[simp] theorem setCluster_pending (c : Nat) (k : Cluster) (s : State) : (setCluster c k s).pending = s.pending := rfl

/-! ## setGroup -/

@[simp] theorem setGroup_time (c k : Nat) (g : Option Group) (s : State) : (setGroup c k g s).time = s.time := rfl
@[simp] theorem setGroup_mtb (c k : Nat) (g : Option Group) (s : State) : (setGroup c k g s).mtb = s.mtb := rfl
@[simp] theorem setGroup_g (c k : Nat) (g : Option Group) (s : State) : (setGroup c k g s).g = s.g := rfl
@[simp] theorem setGroup_chambers (c k : Nat) (g : Option Group) (s : State) : (setGroup c k g s).chambers = s.chambers := rfl
@[simp] theorem setGroup_ports (c k : Nat) (g : Option Group) (s : State) : (setGroup c k g s).ports = s.ports := rfl
@[simp] theorem setGroup_clusters (c k : Nat) (g : Option Group) (s : State) : (setGroup c k g s).clusters = s.clusters := rfl
@[simp] theorem setGroup_core (c k : Nat) (g : Option Group) (s : State) : (setGroup c k g s).core = s.core := rfl
@[simp] theorem setGroup_gal (c k : Nat) (g : Option Group) (s : State) : (setGroup c k g s).gal = s.gal := rfl
@[simp] theorem setGroup_galValid (c k : Nat) (g : Option Group) (s : State) : (setGroup c k g s).galValid = s.galValid := rfl
@[simp] theorem setGroup_bulk (c k : Nat) (g : Option Group) (s : State) : (setGroup c k g s).bulk = s.bulk := rfl
@[simp] theorem setGroup_arrived (c k : Nat) (g : Option Group) (s : State) : (setGroup c k g s).arrived = s.arrived := rfl
@[simp] theorem setGroup_allocs (c k : Nat) (g : Option Group) (s : State) : (setGroup c k g s).allocs = s.allocs := rfl
@[simp] theorem setGroup_icache (c k : Nat) (g : Option Group) (s : State) : (setGroup c k g s).icache = s.icache := rfl
@[simp] theorem setGroup_engines (c k : Nat) (g : Option Group) (s : State) : (setGroup c k g s).engines = s.engines := rfl
@[simp] theorem setGroup_coreBad (c k : Nat) (g : Option Group) (s : State) : (setGroup c k g s).coreBad = s.coreBad := rfl
@[simp] theorem setGroup_galErr (c k : Nat) (g : Option Group) (s : State) : (setGroup c k g s).galErr = s.galErr := rfl
@[simp] theorem setGroup_bulkKey (c k : Nat) (g : Option Group) (s : State) : (setGroup c k g s).bulkKey = s.bulkKey := rfl
@[simp] theorem setGroup_bulkErr (c k : Nat) (g : Option Group) (s : State) : (setGroup c k g s).bulkErr = s.bulkErr := rfl
@[simp] theorem setGroup_bar2Wait (c k : Nat) (g : Option Group) (s : State) : (setGroup c k g s).bar2Wait = s.bar2Wait := rfl
@[simp] theorem setGroup_latching (c k : Nat) (g : Option Group) (s : State) : (setGroup c k g s).latching = s.latching := rfl
@[simp] theorem setGroup_shadows (c k : Nat) (g : Option Group) (s : State) : (setGroup c k g s).shadows = s.shadows := rfl
@[simp] theorem setGroup_opShadows (c k : Nat) (g : Option Group) (s : State) : (setGroup c k g s).opShadows = s.opShadows := rfl
@[simp] theorem setGroup_hostReads (c k : Nat) (g : Option Group) (s : State) : (setGroup c k g s).hostReads = s.hostReads := rfl
@[simp] theorem setGroup_hostWait (c k : Nat) (g : Option Group) (s : State) : (setGroup c k g s).hostWait = s.hostWait := rfl
@[simp] theorem setGroup_merge (c k : Nat) (g : Option Group) (s : State) : (setGroup c k g s).merge = s.merge := rfl
@[simp] theorem setGroup_img (c k : Nat) (g : Option Group) (s : State) : (setGroup c k g s).img = s.img := rfl
@[simp] theorem setGroup_flow (c k : Nat) (g : Option Group) (s : State) : (setGroup c k g s).flow = s.flow := rfl
@[simp] theorem setGroup_pcie (c k : Nat) (g : Option Group) (s : State) : (setGroup c k g s).pcie = s.pcie := rfl
@[simp] theorem setGroup_power (c k : Nat) (g : Option Group) (s : State) : (setGroup c k g s).power = s.power := rfl
@[simp] theorem setGroup_spdm (c k : Nat) (g : Option Group) (s : State) : (setGroup c k g s).spdm = s.spdm := rfl
@[simp] theorem setGroup_coord (c k : Nat) (g : Option Group) (s : State) : (setGroup c k g s).coord = s.coord := rfl
@[simp] theorem setGroup_banks (c k : Nat) (g : Option Group) (s : State) : (setGroup c k g s).banks = s.banks := rfl
@[simp] theorem setGroup_mbxCmd (c k : Nat) (g : Option Group) (s : State) : (setGroup c k g s).mbxCmd = s.mbxCmd := rfl
@[simp] theorem setGroup_jtag (c k : Nat) (g : Option Group) (s : State) : (setGroup c k g s).jtag = s.jtag := rfl
@[simp] theorem setGroup_draws (c k : Nat) (g : Option Group) (s : State) : (setGroup c k g s).draws = s.draws := rfl
@[simp] theorem setGroup_free (c k : Nat) (g : Option Group) (s : State) : (setGroup c k g s).free = s.free := rfl
@[simp] theorem setGroup_out (c k : Nat) (g : Option Group) (s : State) : (setGroup c k g s).out = s.out := rfl
@[simp] theorem setGroup_pending (c k : Nat) (g : Option Group) (s : State) : (setGroup c k g s).pending = s.pending := rfl

/-! ## What they change -/

@[simp] theorem emit_out (o : Out) (s : State) : (emit o s).out = o :: s.out := rfl
@[simp] theorem modPcie_pcie (f : Pcie → Pcie) (s : State) : (modPcie f s).pcie = f s.pcie := rfl
@[simp] theorem modPower_power (f : Power → Power) (s : State) : (modPower f s).power = f s.power := rfl
@[simp] theorem modSpdm_spdm (f : Spdm → Spdm) (s : State) : (modSpdm f s).spdm = f s.spdm := rfl

end Sys2Proof.Machine
end

