-- ==== Sys2Proof/Laws/Tables.lean ====
section
/-! SUPPORT. Tables.lean: the laws of sparse tables and of byte memories: a read after a write, and the
canonical form (Machine/Bits.lean). -/
namespace Sys2Proof.Machine
open Sys2Proof

variable {β : Type} [DecidableEq β]

/-! ## Reads after writes -/

omit [DecidableEq β] in
theorem Tab.get_erase (d : β) (j k : Nat) (t : Tab β) :
    Tab.get d j (Tab.erase k t) = if j = k then d else Tab.get d j t := by
  induction t with
  | nil => simp [Tab.erase, Tab.get]
  | cons e t ih =>
    obtain ⟨i, w⟩ := e
    simp only [Tab.erase]
    split
    · rename_i h; subst h
      rw [ih]; split
      · rfl
      · simp [Tab.get, Ne.symm ‹_›]
    · rename_i h
      simp only [Tab.get, ih]
      split
      · rename_i h2; subst h2; simp [h]
      · rfl

omit [DecidableEq β] in
theorem Tab.get_insert (d v : β) (j k : Nat) (t : Tab β) :
    Tab.get d j (Tab.insert k v (Tab.erase k t)) = if j = k then v else Tab.get d j t := by
  induction t with
  | nil => simp [Tab.erase, Tab.insert, Tab.get, eq_comm]
  | cons e t ih =>
    obtain ⟨i, w⟩ := e
    simp only [Tab.erase]
    split
    · rename_i h; subst h
      rw [ih]; split
      · rfl
      · simp [Tab.get, Ne.symm ‹_›]
    · rename_i h
      simp only [Tab.insert]
      split
      · simp only [Tab.get, Tab.get_erase]
        by_cases hj : j = k
        · simp [hj]
        · simp [hj, Ne.symm hj]
      · simp only [Tab.get, ih]
        split
        · rename_i h2; subst h2; simp [h]
        · rfl

/-- What a table reads as after one key is set. -/
theorem Tab.get_set (d v : β) (j k : Nat) (t : Tab β) :
    Tab.get d j (Tab.set d k v t) = if j = k then v else Tab.get d j t := by
  unfold Tab.set
  split
  · rename_i h; rw [Tab.get_erase, h]
  · exact Tab.get_insert d v j k t

@[simp] theorem Tab.get_set_same (d v : β) (k : Nat) (t : Tab β) : Tab.get d k (Tab.set d k v t) = v := by
  simp [Tab.get_set]

theorem Tab.get_set_ne (d v : β) {j k : Nat} (h : j ≠ k) (t : Tab β) :
    Tab.get d j (Tab.set d k v t) = Tab.get d j t := by
  simp [Tab.get_set, h]

/-- A byte after a write: the byte written inside the written range, the old one elsewhere. -/
theorem get_memWrite (m : Tab W8) (a j : Nat) (bs : Bytes) :
    Tab.get 0 j (memWrite m a bs) = if a ≤ j ∧ j < a + bs.length then bs.getD (j - a) 0 else Tab.get 0 j m := by
  induction bs generalizing m a with
  | nil => rw [memWrite, if_neg (by simp only [List.length_nil]; omega)]
  | cons b bs ih =>
    rw [memWrite, ih, Tab.get_set]
    by_cases h : j = a
    · subst h; rw [if_neg (by omega)]; simp
    · by_cases h2 : a + 1 ≤ j ∧ j < a + 1 + bs.length
      · rw [if_pos h2, if_pos (by simp; omega)]
        obtain ⟨c, rfl⟩ : ∃ c, j = a + 1 + c := ⟨j - (a + 1), by omega⟩
        simp [show a + 1 + c - a = c + 1 by omega]
      · rw [if_neg h2, if_neg h, if_neg (by simp; omega)]

theorem memRead_length (m : Tab W8) (a n : Nat) : (memRead m a n).length = n := by
  induction n generalizing a with
  | zero => rfl
  | succ n ih => simp [memRead, ih]

/-- A read of what a write has just put there. -/
theorem memRead_memWrite_same (m : Tab W8) (a : Nat) (bs : Bytes) :
    memRead (memWrite m a bs) a bs.length = bs := by
  have key : ∀ (n : Nat) (m : Tab W8) (a : Nat) (f : Nat → W8), (∀ i, i < n → Tab.get 0 (a + i) m = f i) →
      memRead m a n = (List.range n).map f := by
    intro n
    induction n with
    | zero => intros; rfl
    | succ n ih =>
      intro m a f h
      rw [memRead, List.range_succ_eq_map, List.map_cons, List.map_map]
      congr 1
      · simpa using h 0 (by omega)
      · exact ih m (a + 1) _ (fun i hi => by
        have := h (i + 1) (by omega)
        simpa [show a + (i + 1) = a + 1 + i by omega] using this)
  rw [key bs.length _ a (fun i => bs.getD i 0)]
  · apply List.ext_getElem (by simp)
    intro i h1 h2; simp [List.getElem?_eq_getElem h2]
  · intro i hi; rw [get_memWrite, if_pos (by omega)]; simp

/-- A read that a write does not touch. -/
theorem memRead_memWrite_disjoint (m : Tab W8) (a b n : Nat) (bs : Bytes)
    (h : b + n ≤ a ∨ a + bs.length ≤ b) : memRead (memWrite m a bs) b n = memRead m b n := by
  induction n generalizing b with
  | zero => rfl
  | succ n ih =>
    rw [memRead, memRead, ih (b + 1) (by omega), get_memWrite, if_neg (by omega)]

/-! ## The canonical form -/

theorem Tab.wf_tail {d : β} {e : Nat × β} {t : Tab β} (h : Tab.wf d (e :: t) = true) : Tab.wf d t = true := by
  cases t with
  | nil => rfl
  | cons f t => obtain ⟨j, v⟩ := e; obtain ⟨k, w⟩ := f; simp [Tab.wf] at h; exact h.2

/-- The canonical form, entry by entry. -/
theorem Tab.wf_cons {d : β} {k : Nat} {v : β} {t : Tab β} :
    Tab.wf d ((k, v) :: t) = true ↔ v ≠ d ∧ (∀ e ∈ t, k < e.1) ∧ Tab.wf d t = true := by
  induction t generalizing k v with
  | nil => simp [Tab.wf]
  | cons f t ih =>
    obtain ⟨j, w⟩ := f
    constructor
    · intro h
      simp only [Tab.wf, Bool.and_eq_true, decide_eq_true_eq] at h
      refine ⟨h.1.1, ?_, h.2⟩
      have h2 := (ih.mp h.2).2.1
      intro e he
      rcases List.mem_cons.mp he with rfl | he
      · exact h.1.2
      · exact Nat.lt_trans h.1.2 (h2 e he)
    · rintro ⟨h1, h2, h3⟩
      simp only [Tab.wf, Bool.and_eq_true, decide_eq_true_eq]
      exact ⟨⟨h1, h2 (j, w) (by simp)⟩, h3⟩

omit [DecidableEq β] in
theorem Tab.mem_erase {k : Nat} {e : Nat × β} {t : Tab β} (h : e ∈ Tab.erase k t) : e ∈ t ∧ e.1 ≠ k := by
  induction t with
  | nil => simp [Tab.erase] at h
  | cons f t ih =>
    obtain ⟨j, w⟩ := f
    simp only [Tab.erase] at h
    split at h
    · exact ⟨List.mem_cons_of_mem _ (ih h).1, (ih h).2⟩
    · rcases List.mem_cons.mp h with rfl | h
      · exact ⟨by simp, ‹_›⟩
      · exact ⟨List.mem_cons_of_mem _ (ih h).1, (ih h).2⟩

theorem Tab.wf_erase {d : β} (k : Nat) {t : Tab β} (h : Tab.wf d t = true) : Tab.wf d (Tab.erase k t) = true := by
  induction t with
  | nil => rfl
  | cons f t ih =>
    obtain ⟨j, w⟩ := f
    have h' := Tab.wf_cons.mp h
    simp only [Tab.erase]
    split
    · exact ih h'.2.2
    · exact Tab.wf_cons.mpr ⟨h'.1, fun e he => h'.2.1 e (Tab.mem_erase he).1, ih h'.2.2⟩

omit [DecidableEq β] in
theorem Tab.mem_insert {k : Nat} {v : β} {e : Nat × β} {t : Tab β} (h : e ∈ Tab.insert k v t) :
    e = (k, v) ∨ e ∈ t := by
  induction t with
  | nil => simpa [Tab.insert] using h
  | cons f t ih =>
    obtain ⟨j, w⟩ := f
    simp only [Tab.insert] at h
    split at h
    · rcases List.mem_cons.mp h with h | h
      · exact .inl h
      · exact .inr h
    · rcases List.mem_cons.mp h with h | h
      · exact .inr (by simp [h])
      · rcases ih h with h | h
        · exact .inl h
        · exact .inr (List.mem_cons_of_mem _ h)

theorem Tab.wf_insert {d v : β} {k : Nat} {t : Tab β} (hv : v ≠ d) (h : Tab.wf d t = true)
    (hk : ∀ e ∈ t, e.1 ≠ k) : Tab.wf d (Tab.insert k v t) = true := by
  induction t with
  | nil => simp [Tab.insert, Tab.wf, hv]
  | cons f t ih =>
    obtain ⟨j, w⟩ := f
    have h' := Tab.wf_cons.mp h
    simp only [Tab.insert]
    split
    · rename_i hlt
      refine Tab.wf_cons.mpr ⟨hv, ?_, h⟩
      intro e he
      rcases List.mem_cons.mp he with rfl | he
      · exact hlt
      · exact Nat.lt_trans hlt (h'.2.1 e he)
    · rename_i hlt
      refine Tab.wf_cons.mpr ⟨h'.1, ?_, ih h'.2.2 (fun e he => hk e (List.mem_cons_of_mem _ he))⟩
      intro e he
      rcases Tab.mem_insert he with rfl | he
      · have := hk (j, w) (by simp); simp at this; simp; omega
      · exact h'.2.1 e he

/-- Setting a key keeps the canonical form. -/
theorem Tab.wf_set {d : β} (v : β) (k : Nat) {t : Tab β} (h : Tab.wf d t = true) :
    Tab.wf d (Tab.set d k v t) = true := by
  unfold Tab.set
  split
  · exact Tab.wf_erase k h
  · exact Tab.wf_insert ‹_› (Tab.wf_erase k h) (fun e he => (Tab.mem_erase he).2)

/-- Dropping keys keeps the canonical form. -/
theorem Tab.wf_drop {d : β} (p : Nat → Bool) {t : Tab β} (h : Tab.wf d t = true) :
    Tab.wf d (Tab.drop p t) = true := by
  induction t with
  | nil => rfl
  | cons f t ih =>
    obtain ⟨j, w⟩ := f
    have h' := Tab.wf_cons.mp h
    unfold Tab.drop at ih ⊢
    rw [List.filter_cons]
    split
    · exact Tab.wf_cons.mpr ⟨h'.1, fun e he => h'.2.1 e ((List.mem_filter.mp he).1), ih h'.2.2⟩
    · exact ih h'.2.2

/-- A write keeps a memory canonical. -/
theorem wf_memWrite {m : Tab W8} (a : Nat) (bs : Bytes) (h : Tab.wf 0 m = true) :
    Tab.wf 0 (memWrite m a bs) = true := by
  induction bs generalizing m a with
  | nil => exact h
  | cons b bs ih => exact ih (a + 1) (Tab.wf_set b a h)

/-- A range set keeps a table canonical. -/
theorem wf_setRange {d : β} (v : β) (a n : Nat) {t : Tab β} (h : Tab.wf d t = true) :
    Tab.wf d (setRange d v a n t) = true := by
  induction n generalizing a t with
  | zero => exact h
  | succ n ih => exact ih (a + 1) (Tab.wf_set v a h)

end Sys2Proof.Machine
end

