-- ==== Sys2Proof/Laws/Registers.lean ====
section
/-! SUPPORT. Registers.lean: a register, chamber, port, cluster or group read back after an update of it. -/
namespace Sys2Proof.Machine
open Sys2Proof

/-! ## Chambers and their registers -/

@[simp] theorem chOf_setCh_same (n : Nat) (c : Chamber) (s : State) : chOf (setCh n c s) n = c := by
  simp [chOf, setCh]

theorem chOf_setCh_ne {n m : Nat} (h : m ≠ n) (c : Chamber) (s : State) : chOf (setCh n c s) m = chOf s m := by
  simp [chOf, setCh, Tab.get_set_ne _ _ h]

@[simp] theorem chOf_modCh_same (n : Nat) (f : Chamber → Chamber) (s : State) : chOf (modCh n f s) n = f (chOf s n) := by
  simp [modCh]

theorem chOf_modCh_ne {n m : Nat} (h : m ≠ n) (f : Chamber → Chamber) (s : State) :
    chOf (modCh n f s) m = chOf s m := by
  simp [modCh, chOf_setCh_ne h]

@[simp] theorem chOf_gset (off : Nat) (v : W32) (s : State) (n : Nat) : chOf (gset off v s) n = chOf s n := rfl
@[simp] theorem chOf_bump (b i k : Nat) (s : State) (n : Nat) : chOf (bump b i k s) n = chOf s n := rfl
@[simp] theorem chOf_bumpCh (m i k : Nat) (s : State) (n : Nat) : chOf (bumpCh m i k s) n = chOf s n := rfl
@[simp] theorem chOf_emit (o : Out) (s : State) (n : Nat) : chOf (emit o s) n = chOf s n := rfl

@[simp] theorem cget_cset_same (off : Nat) (v : W32) (c : Chamber) : cget off (cset off v c) = v := by
  simp [cget, cset]

theorem cget_cset_ne {i j : Nat} (h : i ≠ j) (v : W32) (c : Chamber) : cget i (cset j v c) = cget i c := by
  simp [cget, cset, Tab.get_set_ne _ _ h]

@[simp] theorem creg_setCreg_same (n off : Nat) (v : W32) (s : State) : creg (setCreg n off v s) n off = v := by
  simp [creg, setCreg]

theorem creg_setCreg_ne {n m i j : Nat} (h : m ≠ n ∨ i ≠ j) (v : W32) (s : State) :
    creg (setCreg n j v s) m i = creg s m i := by
  unfold creg setCreg
  by_cases hm : m = n
  · subst hm; rw [chOf_modCh_same, cget_cset_ne (h.resolve_left (by simp))]
  · rw [chOf_modCh_ne hm]

/-! ## Global registers -/

@[simp] theorem gget_gset_same (off : Nat) (v : W32) (s : State) : gget off (gset off v s) = v := by
  simp [gget, gset]

theorem gget_gset_ne {i j : Nat} (h : i ≠ j) (v : W32) (s : State) : gget i (gset j v s) = gget i s := by
  simp [gget, gset, Tab.get_set_ne _ _ h]

@[simp] theorem gget_gmod_same (off : Nat) (f : W32 → W32) (s : State) : gget off (gmod off f s) = f (gget off s) := by
  simp [gmod]

theorem gget_gmod_ne {i j : Nat} (h : i ≠ j) (f : W32 → W32) (s : State) : gget i (gmod j f s) = gget i s := by
  simp [gmod, gget_gset_ne h]

@[simp] theorem gget_setCh (off n : Nat) (c : Chamber) (s : State) : gget off (setCh n c s) = gget off s := rfl
@[simp] theorem gget_modCh (off n : Nat) (f : Chamber → Chamber) (s : State) : gget off (modCh n f s) = gget off s := rfl
@[simp] theorem gget_bump (off b i k : Nat) (s : State) : gget off (bump b i k s) = gget off s := rfl
@[simp] theorem gget_emit (off : Nat) (o : Out) (s : State) : gget off (emit o s) = gget off s := rfl

/-! ## Ports, clusters, groups, housekeeping -/

@[simp] theorem portOf_setPort_same (p : Nat) (q : Port) (s : State) : portOf (setPort p q s) p = q := by
  simp [portOf, setPort]

theorem portOf_setPort_ne {p r : Nat} (h : r ≠ p) (q : Port) (s : State) : portOf (setPort p q s) r = portOf s r := by
  simp [portOf, setPort, Tab.get_set_ne _ _ h]

@[simp] theorem portOf_modPort_same (p : Nat) (f : Port → Port) (s : State) :
    portOf (modPort p f s) p = f (portOf s p) := by
  simp [modPort]

@[simp] theorem clusterOf_setCluster_same (c : Nat) (k : Cluster) (s : State) : clusterOf (setCluster c k s) c = k := by
  simp [clusterOf, setCluster]

theorem clusterOf_setCluster_ne {c d : Nat} (h : d ≠ c) (k : Cluster) (s : State) :
    clusterOf (setCluster c k s) d = clusterOf s d := by
  simp [clusterOf, setCluster, Tab.get_set_ne _ _ h]

@[simp] theorem hkOf_modHk_same (n : Nat) (f : HkCh → HkCh) (s : State) : hkOf (modHk n f s) n = f (hkOf s n) := by
  simp [hkOf, modHk]

@[simp] theorem groupAt_setGroup_same (c k : Nat) (g : Option Group) (s : State) : groupAt (setGroup c k g s) c k = g := by
  simp [groupAt, setGroup]

/-! ## Memory -/

/-- A core-store write keeps the core store canonical. -/
theorem coreWrite_wf (core off : Nat) (bs : Bytes) (s : State) (h : Tab.wf 0 s.core = true) :
    Tab.wf 0 (coreWrite core off bs s).core = true := wf_memWrite _ _ h

/-- A gallery write keeps the gallery canonical. -/
theorem galPut_wf (core off : Nat) (bs : Bytes) (s : State) (h : Tab.wf 0 s.gal = true) :
    Tab.wf 0 (galPut core off bs s).gal = true := wf_memWrite _ _ h

/-- A bulk write keeps bulk memory canonical. -/
theorem bulkPut_wf (k p : Nat) (bs : Bytes) (s : State) (h : Tab.wf 0 s.bulk = true) :
    Tab.wf 0 (bulkPut k p bs s).bulk = true := wf_memWrite _ _ h

/-- The stored bytes of a gallery word after a write of that word. -/
theorem galStored_galPut_same (core off : Nat) (bs : Bytes) (s : State) (h : bs.length = 32) :
    galStored core off (galPut core off bs s) = bs := by
  unfold galStored galPut
  rw [← h]; exact memRead_memWrite_same _ _ _

/-- A bulk unit under the key pair it was just written under (R182). -/
theorem bulkUnit_bulkPut (k p i : Nat) (bs : Bytes) (s : State) (hp : p % 64 = 0) (hl : bs.length = 64) (hi : i < 64) :
    bulkUnit (bulkPut k p bs s) k (p + i) = bs := by
  have h1 : (p + i) / 64 = p / 64 := by omega
  have h2 : p / 64 * 64 = p := by omega
  unfold bulkUnit
  rw [h1, h2, show (bulkPut k p bs s).bulkKey = Tab.set 0 (p / 64) k s.bulkKey from rfl,
    show (bulkPut k p bs s).bulk = memWrite s.bulk p bs from rfl, Tab.get_set_same, if_pos rfl, ← hl]
  exact memRead_memWrite_same _ _ _

/-- The bytes of that unit. -/
theorem bulkByte_bulkPut (k p i : Nat) (bs : Bytes) (s : State) (hp : p % 64 = 0) (hl : bs.length = 64) (hi : i < 64) :
    bulkByte (bulkPut k p bs s) k (p + i) = bs.getD i 0 := by
  unfold bulkByte
  rw [bulkUnit_bulkPut k p i bs s hp hl hi, show (p + i) % 64 = i by omega]

end Sys2Proof.Machine
end

