-- ==== Sys2Proof/Laws/Access.lean ====
section
/-! SUPPORT. Access.lean: where a register write of a function leads once it is served (Machine/Access.lean). -/
namespace Sys2Proof.Machine
open Sys2Proof Sys2Proof.Safety

/-- The PF's BAR0 offset of a word of a chamber's block (Table SCP-5). -/
theorem placeOf_block (s : State) (n : Fin 32) (off : Nat) (h : off < 0x40000) :
    placeOf s 0 (0x1000000 + 0x40000 * n.val + off) = .chm n.val off := by
  have hn := n.isLt
  unfold placeOf
  rw [if_pos rfl, if_pos (by omega)]
  congr 1 <;> omega

/-- A word of PF BAR0 outside the chamber blocks. -/
theorem placeOf_global (s : State) (off : Nat) (h : off < 0x1000000 ∨ 0x1800000 ≤ off) : placeOf s 0 off = .global off := by
  unfold placeOf
  rw [if_pos rfl, if_neg (by omega)]

theorem postWrite_served {s : State} {fn : Fn} (h : served s fn) (off : Nat) (v : W32) :
    postWrite fn off v s = writeAt fn off v s := by
  simp [postWrite, h.1, h.2.1]

/-- A register write that reaches a chamber's block is that of the chamber's register (R13). -/
theorem chmWrite_reaches {s : State} {fn : Fn} {n : Fin 32} (h : reaches s fn n) (off : Nat) (v : W32) (ho : off < 0x40000) :
    chmWrite fn n off v s = writeChm n off v (counted s n off) := by
  obtain ⟨hs, hf, hd⟩ := h
  have hz : hostFrozen s = false := hs.2.2
  have hn : Fin.ofNat 32 n.val = n := by apply Fin.ext; simp [Fin.ofNat, Nat.mod_eq_of_lt n.isLt]
  unfold chmWrite
  by_cases h0 : fn = 0
  · subst h0
    rw [if_pos rfl, postWrite_served hs]
    simp [writeAt, placeOf_block s n off ho, hz, hd, counted]
  · have hc := hf.resolve_left h0
    rw [if_neg h0, if_pos hc, postWrite_served hs]
    simp [writeAt, placeOf, h0, hc, hz, hd, counted]

/-- A register write of the PF to the global block is that of the global register. -/
theorem globalWrite_served {s : State} (h : served s 0) (off : Nat) (v : W32) (ho : off < 0x1000000 ∨ 0x1800000 ≤ off) :
    globalWrite 0 off v s = writeGlobal off v (countedG s off) := by
  unfold globalWrite
  rw [if_pos rfl, postWrite_served h]
  simp [writeAt, placeOf_global s off ho, h.2.2, countedG]

@[simp] theorem chOf_counted (s : State) (n : Fin 32) (off m : Nat) : chOf (counted s n off) m = chOf s m := rfl
@[simp] theorem chOf_countedG (s : State) (off m : Nat) : chOf (countedG s off) m = chOf s m := rfl
@[simp] theorem gget_counted (s : State) (n : Fin 32) (off j : Nat) : gget j (counted s n off) = gget j s := rfl
@[simp] theorem gget_countedG (s : State) (off j : Nat) : gget j (countedG s off) = gget j s := rfl

/-- Of the other functions, a register write changes nothing (R13). -/
theorem chmWrite_other {s : State} {fn : Fn} {n : Fin 32} (h0 : fn ≠ 0) (h : fnCh s fn ≠ some n.val) (off : Nat) (v : W32) :
    chmWrite fn n off v s = s := by
  simp [chmWrite, h0, h]

end Sys2Proof.Machine
end

