-- ==== Sys2Proof/Laws/Bytes.lean ====
section
/-! SUPPORT. Bytes.lean: little-endian byte strings and slices (Machine/Bits.lean), and the granules of a range. -/
namespace Sys2Proof.Machine
open Sys2Proof

@[simp] theorem length_natLe (n v : Nat) : (natLe n v).length = n := by
  induction n generalizing v with
  | zero => rfl
  | succ n ih => simp [natLe, ih]

/-- The number that the low bytes of a number hold. -/
theorem leNat_natLe (n v : Nat) : leNat (natLe n v) = v % 256 ^ n := by
  induction n generalizing v with
  | zero => simp [natLe, leNat, Nat.mod_one]
  | succ n ih =>
    rw [natLe, leNat, ih, Nat.pow_succ, Nat.mul_comm (256 ^ n), Nat.mod_mul]
    simp [BitVec.toNat_ofNat]

theorem leNat_lt (bs : Bytes) : leNat bs < 256 ^ bs.length := by
  induction bs with
  | nil => simp [leNat]
  | cons b l ih =>
    have := b.isLt
    simp only [leNat, List.length_cons, Nat.pow_succ]
    omega

/-- The bytes of a byte string, as the bytes of its number. -/
theorem natLe_leNat (bs : Bytes) : natLe bs.length (leNat bs) = bs := by
  induction bs with
  | nil => rfl
  | cons b l ih =>
    have hb := b.isLt
    rw [List.length_cons, natLe, leNat]
    have h1 : (b.toNat + 256 * leNat l) / 256 = leNat l := by omega
    rw [h1, ih]
    congr 1
    apply BitVec.eq_of_toNat_eq
    simp only [BitVec.toNat_ofNat]
    omega

@[simp] theorem length_slice (bs : Bytes) (o n : Nat) : (slice bs o n).length = n := by
  simp only [slice, List.length_append, List.length_take, List.length_drop, List.length_replicate]
  omega

@[simp] theorem slice_all (bs : Bytes) : slice bs 0 bs.length = bs := by simp [slice]

/-- A register read as four bytes. -/
@[simp] theorem word_bytes (v : W32) : BitVec.ofNat 32 (leNat (natLe 4 v.toNat)) = v := by
  rw [leNat_natLe]; apply BitVec.eq_of_toNat_eq; have := v.isLt; simp; omega

@[simp] theorem granules_word (a : Nat) (h : a % 4 = 0) : granules 4 a 4 = [a] := by
  unfold granules
  have h1 : (a + 4 - 1) / 4 - a / 4 + 1 = 1 := by omega
  rw [if_neg (by decide), h1]
  simp [List.range_succ]; omega

end Sys2Proof.Machine
end

