-- ==== Sys2Proof/Laws/GalCode.lean ====
section
/-! SUPPORT. GalCode.lean: the free columns of the gallery code have the power of R308, and some columns have it. -/
namespace Sys2Proof.Machine
open Sys2Proof

set_option maxRecDepth 100000 in
/-- Columns with the power of R308 exist. -/
theorem columnsOk_cyclic : columnsOk (allColumns cyclicColumns) = true := by decide +kernel

/-- The columns of the module's code have the power of R308, whichever they are. -/
theorem columnsOk_galColumns : columnsOk galColumns = true := by
  unfold galColumns
  exact dite (columnsOk (allColumns ((List.range 256).map Config.galColumn)) = true)
    (fun h => by simp only [h, if_true]) (fun h => by simp only [h, if_false, columnsOk_cyclic, Bool.false_eq_true])

/-- A word whose stored check is that of its data is clean. -/
theorem galDecode_zero (d : BitVec 256) : galDecode d 0 = .clean := rfl

end Sys2Proof.Machine
end

