-- ==== Sys2Proof/Laws/Threads.lean ====
section
/-! SUPPORT. Threads.lean: what a register instruction does to the group that issues it (Machine/Issue.lean). -/
namespace Sys2Proof.Machine
open Sys2Proof

theorem threadAt_modThread (i j : Nat) (f : Thread → Thread) (g : Group) (h : i < g.threads.length) :
    threadAt (modThread i f g) j = if j = i then f (threadAt g i) else threadAt g j := by
  unfold threadAt modThread
  simp only [List.getD_eq_getElem?_getD, List.getElem?_modify]
  by_cases hj : j = i
  · subst hj; simp [h]
  · simp [hj, Ne.symm hj]

@[simp] theorem length_modThread (i : Nat) (f : Thread → Thread) (g : Group) :
    (modThread i f g).threads.length = g.threads.length := by simp [modThread]

theorem modGroup_some {loc : Loc} {g : Group} {s : State} (f : Group → Group)
    (h : groupAt s loc.core.val loc.slot.val = some g) :
    modGroup loc f s = setGroup loc.core.val loc.slot.val (some (f g)) s := by
  simp [modGroup, h]

/-- The thread that a register instruction leaves behind, for a thread as it stands and its free value. -/
def aluThread (a : Alu) (x : Iss) (sp : Special) (d : Nat) (fr : W64) (i : Nat) (th : Thread) : Thread :=
  let r := readCodes sp i (a.srcs x.w) th
  writeCodes d (a.dsts x.w) (a.res x.w r.1 fr) { r.2 with pc := th.pc + 8 }

/-- Runs one thread of a register instruction. -/
def aluStep (a : Alu) (x : Iss) (sp : Special) (d : Nat) (t : State) (i : Nat) : State :=
  modGroup x.loc (modThread i (aluThread a x sp d (fresh t).1 i)) (fresh t).2

/-- The place of a group in `State.groups`. -/
def groupKey (loc : Loc) : Nat := 16 * loc.core.val + loc.slot.val

/-- What the threads of a path leave behind: only groups and the count of free values change, only the
issuing group changes, and each thread of the path changes as the instruction says. -/
theorem aluFold (a : Alu) (x : Iss) (sp : Special) (d : Nat) (path : List Nat) (hn : path.Nodup) :
    ∀ (s : State) (g : Group), groupAt s x.loc.core.val x.loc.slot.val = some g →
      (∀ i ∈ path, i < g.threads.length) →
      ∃ (gs : Tab (Option Group)) (ts : List Thread),
        path.foldl (aluStep a x sp d) s = { s with groups := gs, free := s.free + path.length } ∧
        Tab.get none (groupKey x.loc) gs = some { g with threads := ts } ∧
        (∀ k, k ≠ groupKey x.loc → Tab.get none k gs = Tab.get none k s.groups) ∧
        ts.length = g.threads.length ∧
        (∀ i ∈ path, threadAt { g with threads := ts } i =
          aluThread a x sp d (Config.freeWord (s.free + path.idxOf i)) i (threadAt g i)) ∧
        (∀ j, j ∉ path → threadAt { g with threads := ts } j = threadAt g j) := by
  induction path with
  | nil =>
    intro s g hg _
    exact ⟨s.groups, g.threads, rfl, hg, fun _ _ => rfl, rfl, by simp, fun _ _ => rfl⟩
  | cons i path ih =>
    intro s g hg hlt
    have hni : i ∉ path := (List.nodup_cons.mp hn).1
    let f := aluThread a x sp d (Config.freeWord s.free) i
    let s1 : State := { s with groups := Tab.set none (groupKey x.loc) (some (modThread i f g)) s.groups,
                               free := s.free + 1 }
    have hs1 : aluStep a x sp d s i = s1 := by
      unfold aluStep
      rw [modGroup_some (g := g) _ (by exact hg)]
      rfl
    have hg1 : groupAt s1 x.loc.core.val x.loc.slot.val = some (modThread i f g) := by
      simp [groupAt, s1, groupKey]
    obtain ⟨gs, ts, h1, h2, h3, h4, h5, h6⟩ := ih (List.nodup_cons.mp hn).2 s1 (modThread i f g) hg1
      (fun j hj => by simpa using hlt j (List.mem_cons_of_mem _ hj))
    have hi := hlt i (by simp)
    refine ⟨gs, ts, ?_, h2, ?_, by simpa using h4, ?_, ?_⟩
    · rw [List.foldl_cons, hs1, h1]
      simp [s1]; omega
    · intro k hk; rw [h3 k hk]; simp [s1, Tab.get_set_ne _ _ hk]
    · intro j hj
      by_cases hji : j = i
      · subst hji
        have : threadAt { modThread j f g with threads := ts } j = threadAt (modThread j f g) j := h6 j hni
        rw [threadAt_modThread _ _ _ _ hi, if_pos rfl] at this
        have h0 : List.idxOf j (j :: path) = 0 := List.idxOf_cons_self
        rw [h0]
        exact this
      · have hm : j ∈ path := (List.mem_cons.mp hj).resolve_left hji
        have := h5 j hm
        rw [threadAt_modThread _ _ _ _ hi, if_neg hji] at this
        rw [show (threadAt { g with threads := ts } j) = threadAt { modThread i f g with threads := ts } j from rfl, this]
        have h0 : List.idxOf j (i :: path) = List.idxOf j path + 1 := by
          have hb : (i == j) = false := by simpa using Ne.symm hji
          rw [List.idxOf_cons, hb]; rfl
        rw [h0]
        show aluThread a x sp d (Config.freeWord (s.free + 1 + List.idxOf j path)) j (threadAt g j) = _
        rw [Nat.add_assoc, Nat.add_comm 1]
    · intro j hj
      have hji : j ≠ i := fun h => hj (by simp [h])
      have := h6 j (fun h => hj (List.mem_cons_of_mem _ h))
      rw [threadAt_modThread _ _ _ _ hi, if_neg hji] at this
      exact this

theorem aluThreads_eq (a : Alu) (x : Iss) (s : State) :
    aluThreads a x s = x.path.foldl (aluStep a x (x.special s) (x.depth s)) s := rfl

/-! ## The path that issues -/

theorem choosePath_mem {g : Group} {p : List Nat} (h : choosePath g = some p) : p ∈ paths g := by
  have key : ∀ (l : List (List Nat)) (m : Option (List Nat)),
      (∀ q, m = some q → q ∈ paths g) → (∀ q ∈ l, q ∈ paths g) →
      ∀ p, l.foldl (fun (m : Option (List Nat)) p =>
        match m with
        | none => some p
        | some q => if pathBefore g p q then some p else some q) m = some p → p ∈ paths g := by
    intro l
    induction l with
    | nil => intro m hm _ p hp; exact hm p hp
    | cons q l ih =>
      intro m hm hl p hp
      rw [List.foldl_cons] at hp
      refine ih _ ?_ (fun r hr => hl r (List.mem_cons_of_mem _ hr)) p hp
      intro r hr
      cases m with
      | none => cases hr; exact hl q (by simp)
      | some m0 =>
        simp only at hr
        split at hr
        · cases hr; exact hl q (by simp)
        · exact hm r hr
  exact key (paths g) none (by simp) (fun q hq => hq) p h

theorem mem_pathOf {g : Group} {u : Thread} {i : Nat} (h : i ∈ pathOf g u) : i < g.threads.length := by
  unfold pathOf indexed at h
  simp only [List.mem_map, List.mem_filter] at h
  obtain ⟨e, ⟨⟨k, hk, rfl⟩, -⟩, rfl⟩ := h
  simpa using hk

theorem nodup_pathOf (g : Group) (u : Thread) : (pathOf g u).Nodup := by
  have h : ∀ (l : List (Nat × Thread)) (p : Nat × Thread → Bool), (l.map (·.1)).Nodup → ((l.filter p).map (·.1)).Nodup :=
    fun l p hl => List.Nodup.sublist (List.Sublist.map _ List.filter_sublist) hl
  unfold pathOf
  refine h _ _ ?_
  unfold indexed
  rw [List.map_map]
  simpa [Function.comp_def] using List.nodup_range

/-- The threads of the path that issues are threads of the group, each once. -/
theorem choosePath_ok {g : Group} {p : List Nat} (h : choosePath g = some p) :
    p.Nodup ∧ ∀ i ∈ p, i < g.threads.length := by
  have hp := choosePath_mem h
  unfold paths at hp
  have h2 := (List.mem_filter.mp hp).1
  rw [List.mem_eraseDups] at h2
  obtain ⟨e, -, rfl⟩ := List.mem_map.mp h2
  exact ⟨nodup_pathOf g e.2, fun i hi => mem_pathOf hi⟩

end Sys2Proof.Machine
end

