-- ==== Sys2Proof/Laws/Issue.lean ====
section
/-! SUPPORT. Issue.lean: from an issuing group to the state that its instruction leaves (Machine/Issue.lean). -/
namespace Sys2Proof.Machine
open Sys2Proof Sys2Proof.Safety

/-- An instruction word read back from its eight bytes. -/
theorem word_of_bytes (w : W64) : BitVec.ofNat 64 (leNat (natLe 8 w.toNat)) = w := by
  rw [leNat_natLe]
  apply BitVec.eq_of_toNat_eq
  have := w.isLt
  simp only [BitVec.toNat_ofNat]
  omega

/-- An issuing instruction with legal fields does its work on the issued state. -/
theorem issue_issued {s : State} {loc : Loc} {g : Group} {path : List Nat} {w : W64} {u : State}
    (h : issues s loc g path w u) (mine : W64 → Bool) (act : Iss → State → State) (hm : mine w = true) :
    issue loc mine act s = act ⟨loc, g, path, w⟩ (issued u loc g path w) := by
  obtain ⟨hg, -, hp, ha, hf, ho, hr, hw⟩ := h
  unfold issue
  simp only [hg, hp, ha, hf, word_of_bytes, ho, hm, hr, hw, issued, ne_eq, not_true_eq_false, if_false, Bool.not_true,
    Bool.false_eq_true]

theorem threadAt_of_le {g : Group} {i : Nat} (h : g.threads.length ≤ i) : threadAt g i = { live := false } := by
  simp [threadAt, List.getD_eq_getElem?_getD, List.getElem?_eq_none h]

theorem length_turnAges (path : List Nat) (g : Group) : (turnAges path g).threads.length = g.threads.length := by
  simp [turnAges, indexed]

/-- A slot changes nothing of a thread but the slots it has waited. -/
theorem threadAt_turnAges (path : List Nat) (g : Group) (i : Nat) :
    ∃ n, threadAt (turnAges path g) i = { threadAt g i with age := n } := by
  by_cases hi : i < g.threads.length
  · have : threadAt (turnAges path g) i =
        (fun p : Nat × Thread => if path.contains p.1 then { p.2 with age := 0 }
          else if ((paths g).filter (fun p => p != path)).flatten.contains p.1 then { p.2 with age := p.2.age + 1 }
          else p.2) (i, threadAt g i) := by
      simp [threadAt, turnAges, indexed, List.getD_eq_getElem?_getD, hi]
    rw [this]
    simp only
    split
    · exact ⟨0, rfl⟩
    · split
      · exact ⟨_, rfl⟩
      · exact ⟨(threadAt g i).age, rfl⟩
  · rw [threadAt_of_le (by rw [length_turnAges]; omega), threadAt_of_le (g := g) (by omega)]
    exact ⟨0, rfl⟩

/-- Reading operand codes changes a thread only where TIME_LO is read. -/
theorem readCodes_snd (x : Special) (i : Nat) : ∀ (l : List Nat) (t : Thread),
    (readCodes x i l t).2 = { t with timeHi := if 57 ∈ l then hi32 x.time.toNat else t.timeHi } := by
  intro l
  induction l with
  | nil => intro t; rfl
  | cons c l ih =>
    intro t
    show (readCodes x i l (latchTime x c t)).2 = _
    rw [ih]
    unfold latchTime
    by_cases hc : c = 57
    · simp [hc]
    · have : (57 ∈ c :: l) ↔ 57 ∈ l := by simp [Ne.symm hc]
      simp [hc, this]

/-- The values read do not depend on how long a thread has waited. -/
theorem readCodes_age (x : Special) (i n : Nat) : ∀ (l : List Nat) (t : Thread),
    (readCodes x i l { t with age := n }).1 = (readCodes x i l t).1 := by
  intro l
  induction l with
  | nil => intro t; rfl
  | cons c l ih =>
    intro t
    have h1 : latchTime x c { t with age := n } = { latchTime x c t with age := n } := by
      unfold latchTime; split <;> rfl
    show readCode x i { t with age := n } c :: (readCodes x i l (latchTime x c { t with age := n })).1 =
      readCode x i t c :: (readCodes x i l (latchTime x c t)).1
    rw [h1, ih]
    rfl

theorem length_readCodes (x : Special) (i : Nat) : ∀ (l : List Nat) (t : Thread), (readCodes x i l t).1.length = l.length := by
  intro l
  induction l with
  | nil => intro t; rfl
  | cons c l ih => intro t; simp [readCodes, ih]

theorem regIdx_regs (d c : Nat) (t : Thread) (r : Tab W32) : regIdx d { t with regs := r } c = regIdx d t c := rfl

theorem regIdx_bad (d c : Nat) (t : Thread) (r : Tab W32) (b : Tab Bool) :
    regIdx d { t with regs := r, bad := b } c = regIdx d t c := rfl

theorem writeCode_eq (d c : Nat) (v : W32) (t : Thread) : writeCode d c v t =
    { t with regs := if c < 48 then Tab.set 0 (regIdx d t c) v t.regs else t.regs,
             bad := if c < 48 then Tab.set false (regIdx d t c) false t.bad else t.bad } := by
  unfold writeCode; split <;> rfl

/-- Writing operand codes changes nothing of a thread but its registers and their parity. -/
theorem writeCodes_regs (d : Nat) : ∀ (cs : List Nat) (vs : List W32) (t : Thread),
    writeCodes d cs vs t = { t with regs := (writeCodes d cs vs t).regs, bad := (writeCodes d cs vs t).bad } := by
  intro cs
  induction cs with
  | nil => intro vs t; rfl
  | cons c cs ih =>
    intro vs t
    cases vs with
    | nil => rfl
    | cons v vs =>
      have e : writeCodes d (c :: cs) (v :: vs) t = writeCodes d cs vs (writeCode d c v t) := rfl
      rw [e]
      have := ih vs (writeCode d c v t)
      refine this.trans ?_
      rw [writeCode_eq]

/-- A register that no code written names stays. -/
theorem get_writeCodes_other (d k : Nat) : ∀ (cs : List Nat) (vs : List W32) (t : Thread),
    (∀ c ∈ cs, c < 48 → k ≠ regIdx d t c) → Tab.get 0 k (writeCodes d cs vs t).regs = Tab.get 0 k t.regs := by
  intro cs
  induction cs with
  | nil => intro vs t _; rfl
  | cons c cs ih =>
    intro vs t h
    cases vs with
    | nil => rfl
    | cons v vs =>
      show Tab.get 0 k (writeCodes d cs vs (writeCode d c v t)).regs = _
      rw [ih vs (writeCode d c v t) (fun c' hc' h48 => by
        rw [writeCode_eq]; exact h c' (List.mem_cons_of_mem _ hc') h48), writeCode_eq]
      show Tab.get 0 k (if c < 48 then _ else _) = _
      by_cases hc : c < 48
      · rw [if_pos hc, Tab.get_set_ne _ _ (h c (by simp) hc)]
      · rw [if_neg hc]

/-- A register that is written has good parity, and every other keeps its own. -/
theorem bad_writeCodes (d k : Nat) : ∀ (cs : List Nat) (vs : List W32) (t : Thread), cs.length = vs.length →
    Tab.get false k (writeCodes d cs vs t).bad =
      (Tab.get false k t.bad && !cs.any (fun c => decide (c < 48) && k == regIdx d t c)) := by
  intro cs
  induction cs with
  | nil => intro vs t _; simp [writeCodes]
  | cons c cs ih =>
    intro vs t hl
    cases vs with
    | nil => simp at hl
    | cons v vs =>
      show Tab.get false k (writeCodes d cs vs (writeCode d c v t)).bad = _
      rw [ih vs _ (by simpa using hl), writeCode_eq]
      show (Tab.get false k (if c < 48 then Tab.set false (regIdx d t c) false t.bad else t.bad) &&
        !cs.any (fun c => decide (c < 48) && k == regIdx d t c)) = _
      by_cases hc : c < 48
      · rw [if_pos hc]
        by_cases hk : k = regIdx d t c
        · subst hk; simp [Tab.get_set_same, hc]
        · have hb : (k == regIdx d t c) = false := by simpa using hk
          simp [Tab.get_set_ne _ _ hk, hc, hb]
      · rw [if_neg hc]; simp [hc]

/-- The codes that a thread's window keeps apart: no two of a list name one register. -/
def apart (d : Nat) (t : Thread) (cs : List Nat) : Prop :=
  cs.Pairwise (fun a b => a < 48 → b < 48 → regIdx d t a ≠ regIdx d t b)

/-- Each code written holds its value. -/
theorem get_writeCodes_mem (d : Nat) : ∀ (cs : List Nat) (vs : List W32) (t : Thread), apart d t cs →
    ∀ e ∈ cs.zip vs, e.1 < 48 → Tab.get 0 (regIdx d t e.1) (writeCodes d cs vs t).regs = e.2 := by
  intro cs
  induction cs with
  | nil => intro vs t _ e he; simp at he
  | cons c cs ih =>
    intro vs t ha e he h48
    cases vs with
    | nil => simp at he
    | cons v vs =>
      have ha' := List.pairwise_cons.mp ha
      show Tab.get 0 (regIdx d t e.1) (writeCodes d cs vs (writeCode d c v t)).regs = _
      rw [List.zip_cons_cons, List.mem_cons] at he
      rcases he with rfl | he
      · rw [get_writeCodes_other]
        · rw [writeCode_eq]
          show Tab.get 0 _ (if c < 48 then _ else _) = _
          rw [if_pos h48, Tab.get_set_same]
        · intro c' hc' hc48
          rw [writeCode_eq]
          exact ha'.1 c' hc' h48 hc48
      · have hr : ∀ c', regIdx d (writeCode d c v t) c' = regIdx d t c' := by intro c'; rw [writeCode_eq]; rfl
        rw [← hr]
        exact ih vs (writeCode d c v t) (by unfold apart; simp only [hr]; exact ha'.2) e he h48

/-- Bank counters that an issue adds to are all that it adds to. -/
theorem countIssue_banks (x : Iss) (s : State) : ∃ b, countIssue x s = { s with banks := b } := ⟨_, rfl⟩

/-- The issued state: the fetch's state but for the waiting paths of the group and a bank counter or two. -/
theorem issued_eq {u : State} {loc : Loc} {g : Group} (path : List Nat) (w : W64)
    (h : groupAt u loc.core.val loc.slot.val = some g) :
    ∃ b, issued u loc g path w =
      { u with groups := Tab.set none (16 * loc.core.val + loc.slot.val) (some (turnAges path g)) u.groups, banks := b } := by
  unfold issued
  rw [modGroup_some _ h]
  exact ⟨_, rfl⟩

/-- What a register instruction's row says, from what the model's instruction reads, writes and gives. -/
theorem computes_of {r : AluRow} {a : Alu} (hx : ∀ loc s, exec (r.cmd loc) s = runAlu loc r.opc a s)
    (hsrc : ∀ w, r.ok w = true → a.srcs w = r.srcs w) (hdst : ∀ w, a.dsts w = r.dsts w)
    (hok : ∀ w, r.ok w = true → a.ok w = true) (hap : ∀ w d t, r.ok w = true → apart d t (r.dsts w))
    (hres : ∀ sp w vs fr, r.ok w = true → vs.length = (r.srcs w).length →
      (r.res sp w vs).length = (a.res w vs fr).length ∧
      ∀ k, ((a.res w vs fr).getD k 0) &&& ((r.res sp w vs).getD k unstated).mask =
        ((r.res sp w vs).getD k unstated).value &&& ((r.res sp w vs).getD k unstated).mask)
    (hcount : ∀ w vs fr, r.ok w = true → (r.dsts w).length = (a.res w vs fr).length) : Computes r := by
  intro s loc g path w u hi hop hro hcodes
  have hi' := hi
  obtain ⟨-, hgu, hp, -, -, -, -, -⟩ := hi'
  obtain ⟨hnd, hlt⟩ := choosePath_ok hp
  let x : Iss := ⟨loc, g, path, w⟩
  obtain ⟨bk, hvk⟩ := issued_eq path w hgu
  generalize hvd : issued u loc g path w = v at hvk
  have hv : exec (r.cmd loc) s = .next (aluThreads a x v) := by
    rw [hx]
    unfold runAlu
    rw [issue_issued hi (isOp r.opc) (alu a) (by simp [isOp, hop]), hvd]
    have hd : x.depth v = (chOf u g.ch).winDepth := by rw [hvk]; rfl
    have hcf : codeFault x v (a.srcs w) (a.dsts w) = none := by
      unfold codeFault firstFault
      rw [List.findSome?_eq_none_iff]
      intro i hip
      obtain ⟨h1, h2, h3⟩ := hcodes i hip
      rw [hsrc w hro, hdst, hd]
      simp only [x, Iss.thread, h1, h2, h3, Bool.and_self, Bool.not_true, Bool.false_eq_true, if_false]
    show _ = Host.Outcome.next (aluThreads a x v)
    unfold alu
    rw [hok w hro, hcf]
    rfl
  have hg0 : v.groups = Tab.set none (16 * loc.core.val + loc.slot.val) (some (turnAges path g)) u.groups := by rw [hvk]
  have hgv : groupAt v loc.core.val loc.slot.val = some (turnAges path g) := by
    unfold groupAt; rw [hg0, Tab.get_set_same]
  have hvu : { v with groups := u.groups, banks := u.banks } = u := by rw [hvk]
  have hch : ∀ m, chOf v m = chOf u m := by intro m; rw [hvk]; rfl
  have htime : v.time = u.time := by rw [hvk]
  clear hvd hvk
  obtain ⟨gs, ts, h1, h2, h3, h4, h5, h6⟩ := aluFold a x (x.special v) (x.depth v) path hnd v (turnAges path g) hgv
    (fun i hm => by rw [length_turnAges]; exact hlt i hm)
  have hsp : x.special v = specialOf u g path := by
    simp only [Iss.special, specialOf, groupOp, x, hch, htime]
  have hdp : x.depth v = (chOf u g.ch).winDepth := by simp only [Iss.depth, x, hch]
  refine ⟨_, { turnAges path g with threads := ts }, hv, ?_, ?_, ?_, ?_, ?_, ?_⟩
  · rw [aluThreads_eq, h1]; exact h2
  · intro i hip
    obtain ⟨n, hn⟩ := threadAt_turnAges path g i
    have ht := h5 i hip
    rw [hn, hsp, hdp] at ht
    unfold threadDone
    simp only
    generalize hd : (chOf u g.ch).winDepth = d at ht ⊢
    generalize Config.freeWord (v.free + path.idxOf i) = fr at ht
    generalize hb : threadAt { turnAges path g with threads := ts } i = b at ht ⊢
    have hvals : (readCodes (specialOf u g path) i (r.srcs w) { threadAt g i with age := n }).1 =
        operands u g path (r.srcs w) i := by
      rw [readCodes_age]; rfl
    have hbe : b = writeCodes d (r.dsts w) (a.res w (operands u g path (r.srcs w) i) fr)
        { threadAt g i with
          age := n, pc := (threadAt g i).pc + 8,
          timeHi := if 57 ∈ r.srcs w then hi32 u.time.toNat else (threadAt g i).timeHi } := by
      rw [ht]
      unfold aluThread
      simp only [x, hsrc w hro, hvals, hdst, readCodes_snd]
      rfl
    have hregs := writeCodes_regs d (r.dsts w) (a.res w (operands u g path (r.srcs w) i) fr)
        { threadAt g i with
          age := n, pc := (threadAt g i).pc + 8,
          timeHi := if 57 ∈ r.srcs w then hi32 u.time.toNat else (threadAt g i).timeHi }
    rw [← hbe] at hregs
    have hlen : (operands u g path (r.srcs w) i).length = (r.srcs w).length := length_readCodes _ _ _ _
    have hidx : ∀ c, regIdx d b c = regIdx d (threadAt g i) c := by intro c; rw [hregs]; rfl
    refine ⟨by rw [hregs], ?_, ?_, ?_, by rw [hregs], by rw [hregs]⟩
    · intro e he h48
      obtain ⟨hl, hr⟩ := hres (specialOf u g path) w (operands u g path (r.srcs w) i) fr hro hlen
      obtain ⟨k, hk, rfl⟩ := List.mem_iff_getElem.mp he
      rw [List.getElem_zip] at h48 ⊢
      simp only at h48 ⊢
      have hk1 : k < (r.dsts w).length := by rw [List.length_zip] at hk; omega
      have hk2 : k < (r.res (specialOf u g path) w (operands u g path (r.srcs w) i)).length := by
        rw [List.length_zip] at hk; omega
      have hk3 : k < (a.res w (operands u g path (r.srcs w) i) fr).length := by omega
      have hmem : ((r.dsts w)[k], (a.res w (operands u g path (r.srcs w) i) fr)[k]) ∈
          (r.dsts w).zip (a.res w (operands u g path (r.srcs w) i) fr) := by
        rw [List.mem_iff_getElem]
        exact ⟨k, by rw [List.length_zip]; omega, by rw [List.getElem_zip]⟩
      have hval := get_writeCodes_mem d (r.dsts w) (a.res w (operands u g path (r.srcs w) i) fr)
        { threadAt g i with
          age := n, pc := (threadAt g i).pc + 8,
          timeHi := if 57 ∈ r.srcs w then hi32 u.time.toNat else (threadAt g i).timeHi }
        (hap w d _ hro) _ hmem h48
      rw [← hbe] at hval
      have := hr k
      rw [List.getD_eq_getElem?_getD, List.getD_eq_getElem?_getD, List.getElem?_eq_getElem hk3,
        List.getElem?_eq_getElem hk2] at this
      simp only [Option.getD_some] at this
      rw [← this]
      congr 1
      show register u { turnAges path g with threads := ts } i _ = _
      unfold register
      show Tab.get 0 (regIdx (chOf u g.ch).winDepth _ _) _ = _
      rw [hb, hd, hidx]
      exact hval
    · intro k hk
      rw [hbe, get_writeCodes_other]
      exact hk
    · intro k
      rw [hbe, bad_writeCodes _ _ _ _ _ (hcount w _ fr hro)]
      rfl
  · constructor
    · show ts.length = _
      rw [h4, length_turnAges]
    · intro j hj
      obtain ⟨n, hn⟩ := threadAt_turnAges path g j
      rw [h6 j hj, hn]
  · rfl
  · intro k hk
    rw [aluThreads_eq, h1]
    show Tab.get none k gs = _
    rw [h3 k hk, hg0, Tab.get_set_ne _ _ hk]
  · rw [aluThreads_eq, h1]
    show { v with groups := u.groups, free := u.free, banks := u.banks } = u
    have : { v with groups := u.groups, free := u.free, banks := u.banks } =
        { { v with groups := u.groups, banks := u.banks } with free := u.free } := rfl
    rw [this, hvu]

end Sys2Proof.Machine
end

