-- ==== Sys2Proof/Laws/PerInstr.lean ====
section
/-! SUPPORT. PerInstr.lean: per-instruction families. Payload: a well-formed command carries at most 512 payload items
(bytes, or the 64 or 94 values of a report), so that no command's operands grow without bound. -/
namespace Sys2Proof.Laws.Payload
open Sys2Proof

/-- How many items the payload of a command holds; 0 for a command whose operands are fields only. -/
def size (i : Instr) : Nat :=
  match i with
  | .registerWrite _ _ data => data.length
  | .timeFlit _ flit _ => flit.length
  | .apvSubmit _ _ record => record.length
  | .bar2Write _ data => data.length
  | .sourceBurstArrival _ _ _ data => data.length
  | .dataFlit _ flit _ => flit.length
  | .trainingComplete _ peer => peer.cal.length
  | .pu2 margins => margins.length
  | .budgetPeriod _ power => power.length
  | .energyWindow _ _ cluster => cluster.length
  | .idleFlit _ flit _ => flit.length
  | .trainFlit _ flit _ => flit.length
  | .currentWindow _ samples => samples.length
  | _ => 0

/-- A well-formed command has a payload of at most 512 items. -/
def Statement (i : Instr) : Prop := wellFormed i = true → size i ≤ 512

end Sys2Proof.Laws.Payload

open Sys2Proof Sys2Proof.Laws.Payload

theorem Sys2Proof.Laws.Payload.registerWrite (fn : Fn) (off : BitVec 26) (data : List (Option W8)) : Statement (.registerWrite fn off data) := by
  intro h
  have := of_decide_eq_true h
  simp only [size]
  omega
theorem Sys2Proof.Laws.Payload.counterLowRead (fn : Fn) (off : BitVec 26) (len : BitVec 13) : Statement (.counterLowRead fn off len) :=
  fun _ => Nat.zero_le _
theorem Sys2Proof.Laws.Payload.timeFlit (port : Fin 24) (flit : Bytes) (errs : List CwErr) : Statement (.timeFlit port flit errs) := by
  intro h
  have := of_decide_eq_true h
  simp only [size]
  omega
theorem Sys2Proof.Laws.Payload.timeInputLost : Statement (.timeInputLost) :=
  fun _ => Nat.zero_le _
theorem Sys2Proof.Laws.Payload.reload : Statement (.reload) :=
  fun _ => Nat.zero_le _
theorem Sys2Proof.Laws.Payload.program (slot : BitVec 2) : Statement (.program slot) :=
  fun _ => Nat.zero_le _
theorem Sys2Proof.Laws.Payload.programComplete : Statement (.programComplete) :=
  fun _ => Nat.zero_le _
theorem Sys2Proof.Laws.Payload.clearingComplete (ch : Fin 32) : Statement (.clearingComplete ch) :=
  fun _ => Nat.zero_le _
theorem Sys2Proof.Laws.Payload.enable (fn : Fn) (ch : Fin 32) : Statement (.enable fn ch) :=
  fun _ => Nat.zero_le _
theorem Sys2Proof.Laws.Payload.halt (fn : Fn) (ch : Fin 32) : Statement (.halt fn ch) :=
  fun _ => Nat.zero_le _
theorem Sys2Proof.Laws.Payload.reset (fn : Fn) (ch : Fin 32) : Statement (.reset fn ch) :=
  fun _ => Nat.zero_le _
theorem Sys2Proof.Laws.Payload.ownerLock (fn : Fn) (ch : Fin 32) : Statement (.ownerLock fn ch) :=
  fun _ => Nat.zero_le _
theorem Sys2Proof.Laws.Payload.okeyWrite (fn : Fn) (ch : Fin 32) (i : Fin 24) (v : W32) : Statement (.okeyWrite fn ch i v) :=
  fun _ => Nat.zero_le _
theorem Sys2Proof.Laws.Payload.rwaWrite (fn : Fn) (off : BitVec 26) (v : W32) : Statement (.rwaWrite fn off v) :=
  fun _ => Nat.zero_le _
theorem Sys2Proof.Laws.Payload.propose (fn : Fn) (scope : Scope) : Statement (.propose fn scope) :=
  fun _ => Nat.zero_le _
theorem Sys2Proof.Laws.Payload.submit (fn : Fn) (scope : Scope) : Statement (.submit fn scope) :=
  fun _ => Nat.zero_le _
theorem Sys2Proof.Laws.Payload.cancel (fn : Fn) (scope : Scope) : Statement (.cancel fn scope) :=
  fun _ => Nat.zero_le _
theorem Sys2Proof.Laws.Payload.discard (fn : Fn) (scope : Scope) : Statement (.discard fn scope) :=
  fun _ => Nat.zero_le _
theorem Sys2Proof.Laws.Payload.apvWrite (sess : Sess) (scope : W8) (off v : W32) : Statement (.apvWrite sess scope off v) :=
  fun _ => Nat.zero_le _
theorem Sys2Proof.Laws.Payload.apvPropose (sess : Sess) (scope : W8) : Statement (.apvPropose sess scope) :=
  fun _ => Nat.zero_le _
theorem Sys2Proof.Laws.Payload.apvSubmit (sess : Sess) (scope : W8) (rec : Bytes) : Statement (.apvSubmit sess scope rec) := by
  intro h
  have := of_decide_eq_true h
  simp only [size]
  omega
theorem Sys2Proof.Laws.Payload.apvCancel (sess : Sess) (scope : W8) : Statement (.apvCancel sess scope) :=
  fun _ => Nat.zero_le _
theorem Sys2Proof.Laws.Payload.apvRead (sess : Sess) (scope : W8) : Statement (.apvRead sess scope) :=
  fun _ => Nat.zero_le _
theorem Sys2Proof.Laws.Payload.apvDeadline (scope : Scope) : Statement (.apvDeadline scope) :=
  fun _ => Nat.zero_le _
theorem Sys2Proof.Laws.Payload.apvCommitComplete (scope : Scope) : Statement (.apvCommitComplete scope) :=
  fun _ => Nat.zero_le _
theorem Sys2Proof.Laws.Payload.flowstoneWrite (index : BitVec 14) (v : W32) : Statement (.flowstoneWrite index v) :=
  fun _ => Nat.zero_le _
theorem Sys2Proof.Laws.Payload.flowstoneBusyEnd : Statement (.flowstoneBusyEnd) :=
  fun _ => Nat.zero_le _
theorem Sys2Proof.Laws.Payload.rotationUnitRewrite (ch : Fin 32) : Statement (.rotationUnitRewrite ch) :=
  fun _ => Nat.zero_le _
theorem Sys2Proof.Laws.Payload.debugRead (die : Fin 2) : Statement (.debugRead die) :=
  fun _ => Nat.zero_le _
theorem Sys2Proof.Laws.Payload.debugReadComplete (die : Fin 2) : Statement (.debugReadComplete die) :=
  fun _ => Nat.zero_le _
theorem Sys2Proof.Laws.Payload.getVersion : Statement (.getVersion) :=
  fun _ => Nat.zero_le _
theorem Sys2Proof.Laws.Payload.getCapabilities : Statement (.getCapabilities) :=
  fun _ => Nat.zero_le _
theorem Sys2Proof.Laws.Payload.negotiateAlgorithms (asym hash dhe aead : W32) : Statement (.negotiateAlgorithms asym hash dhe aead) :=
  fun _ => Nat.zero_le _
theorem Sys2Proof.Laws.Payload.getDigests (sess : Sess) : Statement (.getDigests sess) :=
  fun _ => Nat.zero_le _
theorem Sys2Proof.Laws.Payload.getCertificate (sess : Sess) (slot : W8) (off len : W16) : Statement (.getCertificate sess slot off len) :=
  fun _ => Nat.zero_le _
theorem Sys2Proof.Laws.Payload.challenge (sess : Sess) (slot : W8) : Statement (.challenge sess slot) :=
  fun _ => Nat.zero_le _
theorem Sys2Proof.Laws.Payload.getMeasurements (sess : Sess) (index : W8) : Statement (.getMeasurements sess index) :=
  fun _ => Nat.zero_le _
theorem Sys2Proof.Laws.Payload.keyExchange (slot : W8) (reqId : W16) : Statement (.keyExchange slot reqId) :=
  fun _ => Nat.zero_le _
theorem Sys2Proof.Laws.Payload.finish (id : W32) : Statement (.finish id) :=
  fun _ => Nat.zero_le _
theorem Sys2Proof.Laws.Payload.endSession (id : W32) : Statement (.endSession id) :=
  fun _ => Nat.zero_le _
theorem Sys2Proof.Laws.Payload.heartbeat (id : W32) : Statement (.heartbeat id) :=
  fun _ => Nat.zero_le _
theorem Sys2Proof.Laws.Payload.keyUpdate (id : W32) (op : W8) : Statement (.keyUpdate id op) :=
  fun _ => Nat.zero_le _
theorem Sys2Proof.Laws.Payload.doorbell (fn : Fn) (ch : Fin 32) (list : Fin 8) (v : W32) : Statement (.doorbell fn ch list v) :=
  fun _ => Nat.zero_le _
theorem Sys2Proof.Laws.Payload.registerWriteRelease (fn : Fn) : Statement (.registerWriteRelease fn) :=
  fun _ => Nat.zero_le _
theorem Sys2Proof.Laws.Payload.descriptorFetch (ch : Fin 32) (list : Fin 8) : Statement (.descriptorFetch ch list) :=
  fun _ => Nat.zero_le _
theorem Sys2Proof.Laws.Payload.operationStart (ch : Fin 32) (list : Fin 8) (engine : Bool) : Statement (.operationStart ch list engine) :=
  fun _ => Nat.zero_le _
theorem Sys2Proof.Laws.Payload.operationRetire (ch : Fin 32) (seq : W32) : Statement (.operationRetire ch seq) :=
  fun _ => Nat.zero_le _
theorem Sys2Proof.Laws.Payload.matmul (ch : Fin 32) (seq : W32) : Statement (.matmul ch seq) :=
  fun _ => Nat.zero_le _
theorem Sys2Proof.Laws.Payload.conv (ch : Fin 32) (seq : W32) : Statement (.conv ch seq) :=
  fun _ => Nat.zero_le _
theorem Sys2Proof.Laws.Payload.kernel (ch : Fin 32) (seq : W32) : Statement (.kernel ch seq) :=
  fun _ => Nat.zero_le _
theorem Sys2Proof.Laws.Payload.transfer (ch : Fin 32) (seq : W32) : Statement (.transfer ch seq) :=
  fun _ => Nat.zero_le _
theorem Sys2Proof.Laws.Payload.reduce (ch : Fin 32) (seq : W32) : Statement (.reduce ch seq) :=
  fun _ => Nat.zero_le _
theorem Sys2Proof.Laws.Payload.update (ch : Fin 32) (seq : W32) : Statement (.update ch seq) :=
  fun _ => Nat.zero_le _
theorem Sys2Proof.Laws.Payload.signal (ch : Fin 32) (seq : W32) : Statement (.signal ch seq) :=
  fun _ => Nat.zero_le _
theorem Sys2Proof.Laws.Payload.wait (ch : Fin 32) (seq : W32) : Statement (.wait ch seq) :=
  fun _ => Nat.zero_le _
theorem Sys2Proof.Laws.Payload.epoch (ch : Fin 32) (seq : W32) : Statement (.epoch ch seq) :=
  fun _ => Nat.zero_le _
theorem Sys2Proof.Laws.Payload.snapshot (ch : Fin 32) (seq : W32) : Statement (.snapshot ch seq) :=
  fun _ => Nat.zero_le _
theorem Sys2Proof.Laws.Payload.seal (ch : Fin 32) (seq : W32) : Statement (.seal ch seq) :=
  fun _ => Nat.zero_le _
theorem Sys2Proof.Laws.Payload.flush (ch : Fin 32) (seq : W32) : Statement (.flush ch seq) :=
  fun _ => Nat.zero_le _
theorem Sys2Proof.Laws.Payload.epochDrainTimeout (ch : Fin 32) (seq : W32) : Statement (.epochDrainTimeout ch seq) :=
  fun _ => Nat.zero_le _
theorem Sys2Proof.Laws.Payload.checkMismatch (ch : Fin 32) (seq : W32) (faults : List CoreFault) : Statement (.checkMismatch ch seq faults) :=
  fun _ => Nat.zero_le _
theorem Sys2Proof.Laws.Payload.blockDispatch (ch : Fin 32) (seq : W32) : Statement (.blockDispatch ch seq) :=
  fun _ => Nat.zero_le _
theorem Sys2Proof.Laws.Payload.memoryResultReturn (loc : Loc) (thread : Fin 32) : Statement (.memoryResultReturn loc thread) :=
  fun _ => Nat.zero_le _
theorem Sys2Proof.Laws.Payload.sleepEnd (loc : Loc) (thread : Fin 32) : Statement (.sleepEnd loc thread) :=
  fun _ => Nat.zero_le _
theorem Sys2Proof.Laws.Payload.addW (loc : Loc) : Statement (.addW loc) :=
  fun _ => Nat.zero_le _
theorem Sys2Proof.Laws.Payload.subW (loc : Loc) : Statement (.subW loc) :=
  fun _ => Nat.zero_le _
theorem Sys2Proof.Laws.Payload.mulW (loc : Loc) : Statement (.mulW loc) :=
  fun _ => Nat.zero_le _
theorem Sys2Proof.Laws.Payload.mulhiW (loc : Loc) : Statement (.mulhiW loc) :=
  fun _ => Nat.zero_le _
theorem Sys2Proof.Laws.Payload.macW (loc : Loc) : Statement (.macW loc) :=
  fun _ => Nat.zero_le _
theorem Sys2Proof.Laws.Payload.andB (loc : Loc) : Statement (.andB loc) :=
  fun _ => Nat.zero_le _
theorem Sys2Proof.Laws.Payload.orB (loc : Loc) : Statement (.orB loc) :=
  fun _ => Nat.zero_le _
theorem Sys2Proof.Laws.Payload.xorB (loc : Loc) : Statement (.xorB loc) :=
  fun _ => Nat.zero_le _
theorem Sys2Proof.Laws.Payload.shl (loc : Loc) : Statement (.shl loc) :=
  fun _ => Nat.zero_le _
theorem Sys2Proof.Laws.Payload.shr (loc : Loc) : Statement (.shr loc) :=
  fun _ => Nat.zero_le _
theorem Sys2Proof.Laws.Payload.shra (loc : Loc) : Statement (.shra loc) :=
  fun _ => Nat.zero_le _
theorem Sys2Proof.Laws.Payload.minW (loc : Loc) : Statement (.minW loc) :=
  fun _ => Nat.zero_le _
theorem Sys2Proof.Laws.Payload.maxW (loc : Loc) : Statement (.maxW loc) :=
  fun _ => Nat.zero_le _
theorem Sys2Proof.Laws.Payload.cmpW (loc : Loc) : Statement (.cmpW loc) :=
  fun _ => Nat.zero_le _
theorem Sys2Proof.Laws.Payload.pick (loc : Loc) : Statement (.pick loc) :=
  fun _ => Nat.zero_le _
theorem Sys2Proof.Laws.Payload.addsatW (loc : Loc) : Statement (.addsatW loc) :=
  fun _ => Nat.zero_le _
theorem Sys2Proof.Laws.Payload.bitcnt (loc : Loc) : Statement (.bitcnt loc) :=
  fun _ => Nat.zero_le _
theorem Sys2Proof.Laws.Payload.lzcnt (loc : Loc) : Statement (.lzcnt loc) :=
  fun _ => Nat.zero_le _
theorem Sys2Proof.Laws.Payload.copy (loc : Loc) : Statement (.copy loc) :=
  fun _ => Nat.zero_le _
theorem Sys2Proof.Laws.Payload.nop (loc : Loc) : Statement (.nop loc) :=
  fun _ => Nat.zero_le _
theorem Sys2Proof.Laws.Payload.addF (loc : Loc) : Statement (.addF loc) :=
  fun _ => Nat.zero_le _
theorem Sys2Proof.Laws.Payload.subF (loc : Loc) : Statement (.subF loc) :=
  fun _ => Nat.zero_le _
theorem Sys2Proof.Laws.Payload.mulF (loc : Loc) : Statement (.mulF loc) :=
  fun _ => Nat.zero_le _
theorem Sys2Proof.Laws.Payload.macF (loc : Loc) : Statement (.macF loc) :=
  fun _ => Nat.zero_le _
theorem Sys2Proof.Laws.Payload.macF2 (loc : Loc) : Statement (.macF2 loc) :=
  fun _ => Nat.zero_le _
theorem Sys2Proof.Laws.Payload.minF (loc : Loc) : Statement (.minF loc) :=
  fun _ => Nat.zero_le _
theorem Sys2Proof.Laws.Payload.maxF (loc : Loc) : Statement (.maxF loc) :=
  fun _ => Nat.zero_le _
theorem Sys2Proof.Laws.Payload.cmpF (loc : Loc) : Statement (.cmpF loc) :=
  fun _ => Nat.zero_le _
theorem Sys2Proof.Laws.Payload.addB2 (loc : Loc) : Statement (.addB2 loc) :=
  fun _ => Nat.zero_le _
theorem Sys2Proof.Laws.Payload.mulB2 (loc : Loc) : Statement (.mulB2 loc) :=
  fun _ => Nat.zero_le _
theorem Sys2Proof.Laws.Payload.macB2 (loc : Loc) : Statement (.macB2 loc) :=
  fun _ => Nat.zero_le _
theorem Sys2Proof.Laws.Payload.convInstruction (loc : Loc) : Statement (.convInstruction loc) :=
  fun _ => Nat.zero_le _
theorem Sys2Proof.Laws.Payload.qblk (loc : Loc) : Statement (.qblk loc) :=
  fun _ => Nat.zero_le _
theorem Sys2Proof.Laws.Payload.dqblk (loc : Loc) : Statement (.dqblk loc) :=
  fun _ => Nat.zero_le _
theorem Sys2Proof.Laws.Payload.recip (loc : Loc) : Statement (.recip loc) :=
  fun _ => Nat.zero_le _
theorem Sys2Proof.Laws.Payload.rsqrt (loc : Loc) : Statement (.rsqrt loc) :=
  fun _ => Nat.zero_le _
theorem Sys2Proof.Laws.Payload.sqrt (loc : Loc) : Statement (.sqrt loc) :=
  fun _ => Nat.zero_le _
theorem Sys2Proof.Laws.Payload.exp2 (loc : Loc) : Statement (.exp2 loc) :=
  fun _ => Nat.zero_le _
theorem Sys2Proof.Laws.Payload.log2 (loc : Loc) : Statement (.log2 loc) :=
  fun _ => Nat.zero_le _
theorem Sys2Proof.Laws.Payload.getsr (loc : Loc) : Statement (.getsr loc) :=
  fun _ => Nat.zero_le _
theorem Sys2Proof.Laws.Payload.ld (loc : Loc) : Statement (.ld loc) :=
  fun _ => Nat.zero_le _
theorem Sys2Proof.Laws.Payload.st (loc : Loc) : Statement (.st loc) :=
  fun _ => Nat.zero_le _
theorem Sys2Proof.Laws.Payload.cpy (loc : Loc) : Statement (.cpy loc) :=
  fun _ => Nat.zero_le _
theorem Sys2Proof.Laws.Payload.atomIadd (loc : Loc) : Statement (.atomIadd loc) :=
  fun _ => Nat.zero_le _
theorem Sys2Proof.Laws.Payload.atomImax (loc : Loc) : Statement (.atomImax loc) :=
  fun _ => Nat.zero_le _
theorem Sys2Proof.Laws.Payload.atomUmax (loc : Loc) : Statement (.atomUmax loc) :=
  fun _ => Nat.zero_le _
theorem Sys2Proof.Laws.Payload.atomFadd (loc : Loc) : Statement (.atomFadd loc) :=
  fun _ => Nat.zero_le _
theorem Sys2Proof.Laws.Payload.atomCas (loc : Loc) : Statement (.atomCas loc) :=
  fun _ => Nat.zero_le _
theorem Sys2Proof.Laws.Payload.atomCas64 (loc : Loc) : Statement (.atomCas64 loc) :=
  fun _ => Nat.zero_le _
theorem Sys2Proof.Laws.Payload.redIadd (loc : Loc) : Statement (.redIadd loc) :=
  fun _ => Nat.zero_le _
theorem Sys2Proof.Laws.Payload.redImax (loc : Loc) : Statement (.redImax loc) :=
  fun _ => Nat.zero_le _
theorem Sys2Proof.Laws.Payload.redUmax (loc : Loc) : Statement (.redUmax loc) :=
  fun _ => Nat.zero_le _
theorem Sys2Proof.Laws.Payload.redFadd (loc : Loc) : Statement (.redFadd loc) :=
  fun _ => Nat.zero_le _
theorem Sys2Proof.Laws.Payload.redHadd (loc : Loc) : Statement (.redHadd loc) :=
  fun _ => Nat.zero_le _
theorem Sys2Proof.Laws.Payload.fence (loc : Loc) : Statement (.fence loc) :=
  fun _ => Nat.zero_le _
theorem Sys2Proof.Laws.Payload.bar (loc : Loc) : Statement (.bar loc) :=
  fun _ => Nat.zero_le _
theorem Sys2Proof.Laws.Payload.spillw (loc : Loc) : Statement (.spillw loc) :=
  fun _ => Nat.zero_le _
theorem Sys2Proof.Laws.Payload.fillw (loc : Loc) : Statement (.fillw loc) :=
  fun _ => Nat.zero_le _
theorem Sys2Proof.Laws.Payload.bra (loc : Loc) : Statement (.bra loc) :=
  fun _ => Nat.zero_le _
theorem Sys2Proof.Laws.Payload.brz (loc : Loc) : Statement (.brz loc) :=
  fun _ => Nat.zero_le _
theorem Sys2Proof.Laws.Payload.brnz (loc : Loc) : Statement (.brnz loc) :=
  fun _ => Nat.zero_le _
theorem Sys2Proof.Laws.Payload.call (loc : Loc) : Statement (.call loc) :=
  fun _ => Nat.zero_le _
theorem Sys2Proof.Laws.Payload.callr (loc : Loc) : Statement (.callr loc) :=
  fun _ => Nat.zero_le _
theorem Sys2Proof.Laws.Payload.ret (loc : Loc) : Statement (.ret loc) :=
  fun _ => Nat.zero_le _
theorem Sys2Proof.Laws.Payload.resume (loc : Loc) : Statement (.resume loc) :=
  fun _ => Nat.zero_le _
theorem Sys2Proof.Laws.Payload.exitT (loc : Loc) : Statement (.exitT loc) :=
  fun _ => Nat.zero_le _
theorem Sys2Proof.Laws.Payload.sleep (loc : Loc) : Statement (.sleep loc) :=
  fun _ => Nat.zero_le _
theorem Sys2Proof.Laws.Payload.cntadd (loc : Loc) : Statement (.cntadd loc) :=
  fun _ => Nat.zero_le _
theorem Sys2Proof.Laws.Payload.spark (loc : Loc) : Statement (.spark loc) :=
  fun _ => Nat.zero_le _
theorem Sys2Proof.Laws.Payload.inv (fn : Fn) (ch : Fin 32) : Statement (.inv fn ch) :=
  fun _ => Nat.zero_le _
theorem Sys2Proof.Laws.Payload.invalidationComplete (ch : Fin 32) : Statement (.invalidationComplete ch) :=
  fun _ => Nat.zero_le _
theorem Sys2Proof.Laws.Payload.bar2Read (off : BitVec 36) (len : BitVec 13) : Statement (.bar2Read off len) :=
  fun _ => Nat.zero_le _
theorem Sys2Proof.Laws.Payload.bar2Write (off : BitVec 36) (data : Bytes) : Statement (.bar2Write off data) := by
  intro h
  have := of_decide_eq_true h
  simp only [size]
  omega
theorem Sys2Proof.Laws.Payload.mergeBufferTimeout (unit : BitVec 33) : Statement (.mergeBufferTimeout unit) :=
  fun _ => Nat.zero_le _
theorem Sys2Proof.Laws.Payload.read : Statement (.read) :=
  fun _ => Nat.zero_le _
theorem Sys2Proof.Laws.Payload.store : Statement (.store) :=
  fun _ => Nat.zero_le _
theorem Sys2Proof.Laws.Payload.atomic : Statement (.atomic) :=
  fun _ => Nat.zero_le _
theorem Sys2Proof.Laws.Payload.signalPacket : Statement (.signalPacket) :=
  fun _ => Nat.zero_le _
theorem Sys2Proof.Laws.Payload.reducePacket : Statement (.reducePacket) :=
  fun _ => Nat.zero_le _
theorem Sys2Proof.Laws.Payload.readData : Statement (.readData) :=
  fun _ => Nat.zero_le _
theorem Sys2Proof.Laws.Payload.ack : Statement (.ack) :=
  fun _ => Nat.zero_le _
theorem Sys2Proof.Laws.Payload.ackDeadline (ch : Fin 32) (tag : BitVec 20) : Statement (.ackDeadline ch tag) :=
  fun _ => Nat.zero_le _
theorem Sys2Proof.Laws.Payload.counterWrite (fn : Fn) (ch : Fin 32) (n : BitVec 12) (v : W32) : Statement (.counterWrite fn ch n v) :=
  fun _ => Nat.zero_le _
theorem Sys2Proof.Laws.Payload.counterAdd (fn : Fn) (ch : Fin 32) (n : BitVec 12) (v : W32) : Statement (.counterAdd fn ch n v) :=
  fun _ => Nat.zero_le _
theorem Sys2Proof.Laws.Payload.waitTimeout (ch : Fin 32) (seq : W32) : Statement (.waitTimeout ch seq) :=
  fun _ => Nat.zero_le _
theorem Sys2Proof.Laws.Payload.kernelTimeout (ch : Fin 32) (seq : W32) : Statement (.kernelTimeout ch seq) :=
  fun _ => Nat.zero_le _
theorem Sys2Proof.Laws.Payload.opsLbaseWrite (fn : Fn) (ch : Fin 32) (list : Fin 8) (hi : Bool) (v : W32) : Statement (.opsLbaseWrite fn ch list hi v) :=
  fun _ => Nat.zero_le _
theorem Sys2Proof.Laws.Payload.opsLsizeWrite (fn : Fn) (ch : Fin 32) (list : Fin 8) (v : W32) : Statement (.opsLsizeWrite fn ch list v) :=
  fun _ => Nat.zero_le _
theorem Sys2Proof.Laws.Payload.opsStrBaseWrite (fn : Fn) (ch : Fin 32) (hi : Bool) (v : W32) : Statement (.opsStrBaseWrite fn ch hi v) :=
  fun _ => Nat.zero_le _
theorem Sys2Proof.Laws.Payload.opsStrCountWrite (fn : Fn) (ch : Fin 32) (v : W32) : Statement (.opsStrCountWrite fn ch v) :=
  fun _ => Nat.zero_le _
theorem Sys2Proof.Laws.Payload.sourceBurstArrival (ch : Fin 32) (stream : BitVec 18) (n : BitVec 9) (data : Bytes) : Statement (.sourceBurstArrival ch stream n data) := by
  intro h
  have h1 := of_decide_eq_true h
  have h2 := n.isLt
  simp only [size]
  omega
theorem Sys2Proof.Laws.Payload.streamStall (ch : Fin 32) (stream : BitVec 18) : Statement (.streamStall ch stream) :=
  fun _ => Nat.zero_le _
theorem Sys2Proof.Laws.Payload.stallTimeout (ch : Fin 32) (stream : BitVec 18) : Statement (.stallTimeout ch stream) :=
  fun _ => Nat.zero_le _
theorem Sys2Proof.Laws.Payload.bankAgeForce (ch : Fin 32) (list : Fin 8) : Statement (.bankAgeForce ch list) :=
  fun _ => Nat.zero_le _
theorem Sys2Proof.Laws.Payload.pipBankCfgWrite (fn : Fn) (ch : Fin 32) (v : W32) : Statement (.pipBankCfgWrite fn ch v) :=
  fun _ => Nat.zero_le _
theorem Sys2Proof.Laws.Payload.pipBankAgeWrite (fn : Fn) (ch : Fin 32) (v : W32) : Statement (.pipBankAgeWrite fn ch v) :=
  fun _ => Nat.zero_le _
theorem Sys2Proof.Laws.Payload.pipStageWrite (fn : Fn) (ch : Fin 32) (k : Fin 8) (v : W32) : Statement (.pipStageWrite fn ch k v) :=
  fun _ => Nat.zero_le _
theorem Sys2Proof.Laws.Payload.updateNormTimeout (ch : Fin 32) (seq : W32) : Statement (.updateNormTimeout ch seq) :=
  fun _ => Nat.zero_le _
theorem Sys2Proof.Laws.Payload.ashTimeout (ch : Fin 32) (seq : W32) : Statement (.ashTimeout ch seq) :=
  fun _ => Nat.zero_le _
theorem Sys2Proof.Laws.Payload.ashCfgWrite (fn : Fn) (ch : Fin 32) (v : W32) : Statement (.ashCfgWrite fn ch v) :=
  fun _ => Nat.zero_le _
theorem Sys2Proof.Laws.Payload.ashRingWrite (fn : Fn) (ch : Fin 32) (reg : Fin 3) (v : W32) : Statement (.ashRingWrite fn ch reg v) :=
  fun _ => Nat.zero_le _
theorem Sys2Proof.Laws.Payload.chmJobWrite (fn : Fn) (ch : Fin 32) (v : W32) : Statement (.chmJobWrite fn ch v) :=
  fun _ => Nat.zero_le _
theorem Sys2Proof.Laws.Payload.dataFlit (port : Fin 24) (flit : Bytes) (errs : List CwErr) : Statement (.dataFlit port flit errs) := by
  intro h
  have := of_decide_eq_true h
  simp only [size]
  omega
theorem Sys2Proof.Laws.Payload.codewordErrorBurst (port : Fin 24) : Statement (.codewordErrorBurst port) :=
  fun _ => Nat.zero_le _
theorem Sys2Proof.Laws.Payload.replayLimit (port : Fin 24) : Statement (.replayLimit port) :=
  fun _ => Nat.zero_le _
theorem Sys2Proof.Laws.Payload.laneLockLoss (port : Fin 24) : Statement (.laneLockLoss port) :=
  fun _ => Nat.zero_le _
theorem Sys2Proof.Laws.Payload.trainFlit (port : Fin 24) (flit : Bytes) (errs : List CwErr) : Statement (.trainFlit port flit errs) := by
  intro h
  have := of_decide_eq_true h
  simp only [size]
  omega
theorem Sys2Proof.Laws.Payload.trainingComplete (port : Fin 24) (peer : TrainResult) : Statement (.trainingComplete port peer) := by
  intro h
  have := of_decide_eq_true h
  simp only [size]
  omega
theorem Sys2Proof.Laws.Payload.trainingFailed (port : Fin 24) : Statement (.trainingFailed port) :=
  fun _ => Nat.zero_le _
theorem Sys2Proof.Laws.Payload.downRetry (port : Fin 24) : Statement (.downRetry port) :=
  fun _ => Nat.zero_le _
theorem Sys2Proof.Laws.Payload.retrain (port : Fin 24) (full : Bool) : Statement (.retrain port full) :=
  fun _ => Nat.zero_le _
theorem Sys2Proof.Laws.Payload.clr (port : Fin 24) : Statement (.clr port) :=
  fun _ => Nat.zero_le _
theorem Sys2Proof.Laws.Payload.timeFlitSend (port : Fin 24) : Statement (.timeFlitSend port) :=
  fun _ => Nat.zero_le _
theorem Sys2Proof.Laws.Payload.slackSend : Statement (.slackSend) :=
  fun _ => Nat.zero_le _
theorem Sys2Proof.Laws.Payload.slack : Statement (.slack) :=
  fun _ => Nat.zero_le _
theorem Sys2Proof.Laws.Payload.grant : Statement (.grant) :=
  fun _ => Nat.zero_le _
theorem Sys2Proof.Laws.Payload.coordinatorPeriod : Statement (.coordinatorPeriod) :=
  fun _ => Nat.zero_le _
theorem Sys2Proof.Laws.Payload.grantApply : Statement (.grantApply) :=
  fun _ => Nat.zero_le _
theorem Sys2Proof.Laws.Payload.pwrGrantWrite (v : W32) : Statement (.pwrGrantWrite v) :=
  fun _ => Nat.zero_le _
theorem Sys2Proof.Laws.Payload.correctionReport (scope : Scope) : Statement (.correctionReport scope) :=
  fun _ => Nat.zero_le _
theorem Sys2Proof.Laws.Payload.sramCorrectionReport : Statement (.sramCorrectionReport) :=
  fun _ => Nat.zero_le _
theorem Sys2Proof.Laws.Payload.sramUncorrectable : Statement (.sramUncorrectable) :=
  fun _ => Nat.zero_le _
theorem Sys2Proof.Laws.Payload.swpStart (fn : Fn) (scope : Scope) : Statement (.swpStart fn scope) :=
  fun _ => Nat.zero_le _
theorem Sys2Proof.Laws.Payload.swpAbort (fn : Fn) (scope : Scope) : Statement (.swpAbort fn scope) :=
  fun _ => Nat.zero_le _
theorem Sys2Proof.Laws.Payload.sweepWordCheck (scope : Scope) : Statement (.sweepWordCheck scope) :=
  fun _ => Nat.zero_le _
theorem Sys2Proof.Laws.Payload.rawRead (fn : Fn) (ch : Fin 32) : Statement (.rawRead fn ch) :=
  fun _ => Nat.zero_le _
theorem Sys2Proof.Laws.Payload.rawWrite (fn : Fn) (ch : Fin 32) : Statement (.rawWrite fn ch) :=
  fun _ => Nat.zero_le _
theorem Sys2Proof.Laws.Payload.rawCommandComplete (ch : Fin 32) : Statement (.rawCommandComplete ch) :=
  fun _ => Nat.zero_le _
theorem Sys2Proof.Laws.Payload.cbistStart (cluster : BitVec 6) (tests : BitVec 4) (update : Bool) : Statement (.cbistStart cluster tests update) :=
  fun _ => Nat.zero_le _
theorem Sys2Proof.Laws.Payload.cbistAbort : Statement (.cbistAbort) :=
  fun _ => Nat.zero_le _
theorem Sys2Proof.Laws.Payload.cbistComplete (failmask first : BitVec 4) (bonds : List BondFail) : Statement (.cbistComplete failmask first bonds) :=
  fun _ => Nat.zero_le _
theorem Sys2Proof.Laws.Payload.enRise : Statement (.enRise) :=
  fun _ => Nat.zero_le _
theorem Sys2Proof.Laws.Payload.enFall : Statement (.enFall) :=
  fun _ => Nat.zero_le _
theorem Sys2Proof.Laws.Payload.pldmOn : Statement (.pldmOn) :=
  fun _ => Nat.zero_le _
theorem Sys2Proof.Laws.Payload.pldmStandby : Statement (.pldmStandby) :=
  fun _ => Nat.zero_le _
theorem Sys2Proof.Laws.Payload.pldmOff : Statement (.pldmOff) :=
  fun _ => Nat.zero_le _
theorem Sys2Proof.Laws.Payload.pwrCmdStandby : Statement (.pwrCmdStandby) :=
  fun _ => Nat.zero_le _
theorem Sys2Proof.Laws.Payload.pwrCmdOff : Statement (.pwrCmdOff) :=
  fun _ => Nat.zero_le _
theorem Sys2Proof.Laws.Payload.inputLoss : Statement (.inputLoss) :=
  fun _ => Nat.zero_le _
theorem Sys2Proof.Laws.Payload.startUp : Statement (.startUp) :=
  fun _ => Nat.zero_le _
theorem Sys2Proof.Laws.Payload.standbyReached : Statement (.standbyReached) :=
  fun _ => Nat.zero_le _
theorem Sys2Proof.Laws.Payload.pu1 : Statement (.pu1) :=
  fun _ => Nat.zero_le _
theorem Sys2Proof.Laws.Payload.pu2 (margins : List W8) : Statement (.pu2 margins) := by
  intro h
  have := of_decide_eq_true h
  simp only [size]
  omega
theorem Sys2Proof.Laws.Payload.pu3 (test : SelfTest) : Statement (.pu3 test) :=
  fun _ => Nat.zero_le _
theorem Sys2Proof.Laws.Payload.pu4 : Statement (.pu4) :=
  fun _ => Nat.zero_le _
theorem Sys2Proof.Laws.Payload.pu5 : Statement (.pu5) :=
  fun _ => Nat.zero_le _
theorem Sys2Proof.Laws.Payload.pu6 : Statement (.pu6) :=
  fun _ => Nat.zero_le _
theorem Sys2Proof.Laws.Payload.pd1 : Statement (.pd1) :=
  fun _ => Nat.zero_le _
theorem Sys2Proof.Laws.Payload.pd2 : Statement (.pd2) :=
  fun _ => Nat.zero_le _
theorem Sys2Proof.Laws.Payload.pd3 : Statement (.pd3) :=
  fun _ => Nat.zero_le _
theorem Sys2Proof.Laws.Payload.pd4 : Statement (.pd4) :=
  fun _ => Nat.zero_le _
theorem Sys2Proof.Laws.Payload.offReached : Statement (.offReached) :=
  fun _ => Nat.zero_le _
theorem Sys2Proof.Laws.Payload.dwellEnd : Statement (.dwellEnd) :=
  fun _ => Nat.zero_le _
theorem Sys2Proof.Laws.Payload.powerTrip (cause : TripCause) : Statement (.powerTrip cause) :=
  fun _ => Nat.zero_le _
theorem Sys2Proof.Laws.Payload.rotLost : Statement (.rotLost) :=
  fun _ => Nat.zero_le _
theorem Sys2Proof.Laws.Payload.tripHoldoffEnd : Statement (.tripHoldoffEnd) :=
  fun _ => Nat.zero_le _
theorem Sys2Proof.Laws.Payload.currentWindow (die : Fin 2) (samples : List RailSample) :
    Statement (.currentWindow die samples) := by
  intro h
  have := of_decide_eq_true h
  simp only [size]
  omega
theorem Sys2Proof.Laws.Payload.budgetPeriod (shared : W32) (power : List Nat) : Statement (.budgetPeriod shared power) := by
  intro h
  have := of_decide_eq_true h
  simp only [size]
  omega
theorem Sys2Proof.Laws.Payload.frequencyStep (cluster : BitVec 6) : Statement (.frequencyStep cluster) :=
  fun _ => Nat.zero_le _
theorem Sys2Proof.Laws.Payload.frequencyChangeComplete (cluster : BitVec 6) : Statement (.frequencyChangeComplete cluster) :=
  fun _ => Nat.zero_le _
theorem Sys2Proof.Laws.Payload.deferredChangeStart (cluster : BitVec 6) : Statement (.deferredChangeStart cluster) :=
  fun _ => Nat.zero_le _
theorem Sys2Proof.Laws.Payload.droopAssert (cluster : BitVec 6) : Statement (.droopAssert cluster) :=
  fun _ => Nat.zero_le _
theorem Sys2Proof.Laws.Payload.droopRelease (cluster : BitVec 6) : Statement (.droopRelease cluster) :=
  fun _ => Nat.zero_le _
theorem Sys2Proof.Laws.Payload.energyWindow (input peak : Nat) (cluster : List Nat) : Statement (.energyWindow input peak cluster) := by
  intro h
  have := of_decide_eq_true h
  simp only [size]
  omega
theorem Sys2Proof.Laws.Payload.hkConversion (n : BitVec 8) (v : W16) : Statement (.hkConversion n v) :=
  fun _ => Nat.zero_le _
theorem Sys2Proof.Laws.Payload.hkRoundEnd : Statement (.hkRoundEnd) :=
  fun _ => Nat.zero_le _
theorem Sys2Proof.Laws.Payload.hkTrig (v : W32) : Statement (.hkTrig v) :=
  fun _ => Nat.zero_le _
theorem Sys2Proof.Laws.Payload.perstAssert : Statement (.perstAssert) :=
  fun _ => Nat.zero_le _
theorem Sys2Proof.Laws.Payload.perstDeassert : Statement (.perstDeassert) :=
  fun _ => Nat.zero_le _
theorem Sys2Proof.Laws.Payload.hotReset : Statement (.hotReset) :=
  fun _ => Nat.zero_le _
theorem Sys2Proof.Laws.Payload.pfFlr : Statement (.pfFlr) :=
  fun _ => Nat.zero_le _
theorem Sys2Proof.Laws.Payload.vfFlr (k : Fin 32) : Statement (.vfFlr k) :=
  fun _ => Nat.zero_le _
theorem Sys2Proof.Laws.Payload.modRstWarm : Statement (.modRstWarm) :=
  fun _ => Nat.zero_le _
theorem Sys2Proof.Laws.Payload.warmReset (sess : Sess) : Statement (.warmReset sess) :=
  fun _ => Nat.zero_le _
theorem Sys2Proof.Laws.Payload.warmResetComplete : Statement (.warmResetComplete) :=
  fun _ => Nat.zero_le _
theorem Sys2Proof.Laws.Payload.hostCompletion (tag : Nat) (ok : Bool) (data : Bytes) : Statement (.hostCompletion tag ok data) :=
  fun _ => Nat.zero_le _
theorem Sys2Proof.Laws.Payload.dmaReadTimeout (tag : Nat) : Statement (.dmaReadTimeout tag) :=
  fun _ => Nat.zero_le _
theorem Sys2Proof.Laws.Payload.holdoffExpiry (fn : Fn) (vector : BitVec 11) : Statement (.holdoffExpiry fn vector) :=
  fun _ => Nat.zero_le _
theorem Sys2Proof.Laws.Payload.evrCfgWrite (fn : Fn) (scope : Scope) (off : BitVec 6) (v : W32) : Statement (.evrCfgWrite fn scope off v) :=
  fun _ => Nat.zero_le _
theorem Sys2Proof.Laws.Payload.getInfo (len : W16) : Statement (.getInfo len) :=
  fun _ => Nat.zero_le _
theorem Sys2Proof.Laws.Payload.getFru (len : W16) : Statement (.getFru len) :=
  fun _ => Nat.zero_le _
theorem Sys2Proof.Laws.Payload.mbxGetMeasurements (len : W16) : Statement (.mbxGetMeasurements len) :=
  fun _ => Nat.zero_le _
theorem Sys2Proof.Laws.Payload.mailboxComplete : Statement (.mailboxComplete) :=
  fun _ => Nat.zero_le _
theorem Sys2Proof.Laws.Payload.readReg (off : W32) : Statement (.readReg off) :=
  fun _ => Nat.zero_le _
theorem Sys2Proof.Laws.Payload.setTlim (sess : Sess) (v : W32) : Statement (.setTlim sess v) :=
  fun _ => Nat.zero_le _
theorem Sys2Proof.Laws.Payload.clearTrip (sess : Sess) : Statement (.clearTrip sess) :=
  fun _ => Nat.zero_le _
theorem Sys2Proof.Laws.Payload.firmwareUpdate (microcode : Bool) (version : W16) (security : W8) (verifies : Bool) :
    Statement (.firmwareUpdate microcode version security verifies) :=
  fun _ => Nat.zero_le _
theorem Sys2Proof.Laws.Payload.bypass (die : Fin 2) (code : W8) : Statement (.bypass die code) :=
  fun _ => Nat.zero_le _
theorem Sys2Proof.Laws.Payload.idcode (die : Fin 2) : Statement (.idcode die) :=
  fun _ => Nat.zero_le _
theorem Sys2Proof.Laws.Payload.samplePreload (die : Fin 2) : Statement (.samplePreload die) :=
  fun _ => Nat.zero_le _
theorem Sys2Proof.Laws.Payload.extest (die : Fin 2) : Statement (.extest die) :=
  fun _ => Nat.zero_le _
theorem Sys2Proof.Laws.Payload.arm : Statement (.arm) :=
  fun _ => Nat.zero_le _
theorem Sys2Proof.Laws.Payload.lntCancel : Statement (.lntCancel) :=
  fun _ => Nat.zero_le _
theorem Sys2Proof.Laws.Payload.lanternLatch : Statement (.lanternLatch) :=
  fun _ => Nat.zero_le _
theorem Sys2Proof.Laws.Payload.idleFlit (port : Fin 24) (flit : Bytes) (errs : List CwErr) : Statement (.idleFlit port flit errs) := by
  intro h
  have := of_decide_eq_true h
  simp only [size]
  omega
theorem Sys2Proof.Laws.Payload.pcieLinkUp (speed : BitVec 3) (width : BitVec 5) : Statement (.pcieLinkUp speed width) :=
  fun _ => Nat.zero_le _
theorem Sys2Proof.Laws.Payload.configurationRequest (fn : Fn) (write : Bool) (reg : ConfigReg) (v : W32) : Statement (.configurationRequest fn write reg v) :=
  fun _ => Nat.zero_le _
end

