-- ==== Sys2Proof/Tests/Slice0.lean ====
section
/-! SUPPORT. Slice0.lean: small tests: operands that WellFormed refuses, single steps on small states, and for the
hypotheses of every statement a concrete state and operands that meet them (witness_...). -/
namespace Sys2Proof.Tests
set_option Elab.async false
open Sys2Proof Sys2Proof.Machine Sys2Proof.Safety

/-! ## States -/

/-- A module in Ready, its link up, with nothing loaded. -/
def rdy : State :=
  { g := coldRegs, time := 1000000, firmware := { booted := 1 },
    power := { phase := .ready, target := .on, input := true },
    pcie := { speed := 5, width := 16, perst := false } }

/-- Chamber 0: one cluster, one alcove, the first GiB of bulk memory, key pair 1. -/
def chamber (st : ChState) : Chamber :=
  { st := st, vf := 1, alcoves := 1, clusters := 1, masks := [1], opShare := 64, winDepth := 2, ranges := [(0, 1)], key := 1 }

/-- The Ready module with chamber 0 as given. -/
def with0 (c : Chamber) : State := setCh 0 c rdy

/-- The Ready module with chamber 0 in a state. -/
def in0 (st : ChState) : State := with0 (chamber st)

/-- The Ready module with one packet that has arrived. -/
def got (p : Packet) (s : State) : State := { s with arrived := [p] }

/-! ## A chamber with bulk memory -/

/-- Chamber 0 with registers and operations. -/
def ch0 (regs : Tab W32) (ops : List Op) : Chamber := { chamber .running with regs := regs, ops := ops }

/-- Page tables at bulk addresses 0, 0x1000 and 0x2000 that map the first 2 MiB of the chamber to 0x20_0000 on. -/
def pages : Mem := [(0, 1), (1, 0x10), (0x1000, 1), (0x1001, 0x20), (0x2000, 0xF), (0x2002, 0x20)]

/-- A module whose chamber 0 has those tables, and bytes at the chamber virtual address 0. -/
def paged (c : Chamber) (bs : Bytes) : State :=
  { with0 c with
    bulk := memWrite pages 0x200000 bs
    bulkKey := [(0, 1), (64, 1), (128, 1), (32768, 1), (32769, 1)] }

/-- A descriptor of a type, with chosen bytes. -/
def descOf (type : W8) (at_ : List (Nat × W8)) : Bytes :=
  at_.foldl (fun d e => d.set e.1 e.2) (type :: List.replicate 127 0)

/-- An operation of list 0 in a state. -/
def opIn (st : OpState) (desc : Bytes) : Op := { seq := 0, list := 0, entry := 0, desc := desc, state := st }

/-- A running chamber 0 with one operation. -/
def op1 (o : Op) : State := with0 (ch0 [] [o])


/-! ## Thread groups -/

/-- An instruction word: OPC, operand codes D, A, B and C, TYPE and MOD. -/
def word (opc d a b c ty mod : Nat) : W64 :=
  BitVec.ofNat 64 (opc + d * 2 ^ 8 + a * 2 ^ 14 + ty * 2 ^ 20 + mod * 2 ^ 24 + b * 2 ^ 32 + c * 2 ^ 38)

/-- A KERNEL whose trap address is 0x1000, executing as operation 0. -/
def kernelOp : Op := { seq := 0, list := 0, entry := 0, desc := descOf 3 [(0x19, 0x10)], state := .executing }

/-- A group of that KERNEL whose first threads are live. -/
def crew (ts : List Thread) : Group :=
  { ch := 0, seq := 0, block := 0, index := 0, alcove := 0, spill := 1024, spillOff := 0, home := 0, sharedOff := 0,
    shared := 0, threads := ts ++ List.replicate (32 - ts.length) { live := false } }

/-- A group with one live thread. -/
def group (t : Thread) : Group := crew [t]

/-- The place of the group. -/
def here : Loc := ⟨0, 0⟩

/-- A group at its place, with an instruction at chamber virtual address 0. -/
def threads (g : Group) (w : W64) : State :=
  { paged { ch0 [] [kernelOp] with peers := [(0, 0)] } (natLe 8 w.toNat) with groups := [(0, some g)] }

/-- The state after the fetch of that instruction. -/
def fetched (g : Group) (w : W64) : State := (fetchIns 0 0 0 (threads g w)).2

/-- Whether the first `n` threads of a group issue that instruction. -/
def issuesN (n : Nat) (g : Group) (w : W64) : Bool :=
  groupAt (threads g w) 0 0 == some g && groupAt (fetched g w) 0 0 == some g && g.ch == 0 &&
  choosePath g == some (List.range n) && (threadAt g ((List.range n).headD 0)).pc == 0 &&
  (match (fetchIns 0 0 0 (threads g w)).1 with | .ok b => b == natLe 8 w.toNat | .error _ => false) &&
  opcLegal (iOpc w) && fieldsOk w && !mustWait ⟨here, g, List.range n, w⟩ (fetched g w)

theorem issuesN_issues {n : Nat} {g : Group} {w : W64} (h : issuesN n g w = true) :
    issues (threads g w) here g (List.range n) w (fetched g w) := by
  simp only [issuesN, Bool.and_eq_true, beq_iff_eq, Bool.not_eq_true'] at h
  obtain ⟨⟨⟨⟨⟨⟨⟨⟨h1, h2⟩, h8⟩, h3⟩, h4⟩, h5⟩, h6⟩, h7⟩, h9⟩ := h
  refine ⟨h1, h2, h3, by rw [h4]; decide, ?_, h6, h7, h9⟩
  rw [h4, h8, show here.core.val = 0 from rfl]
  unfold fetched
  revert h5
  cases hf : fetchIns 0 0 0 (threads g w) with
  | mk r u =>
    cases r with
    | ok b => simp
    | error e => simp

/-- The same for a group with one live thread. -/
def issuesB (t : Thread) (w : W64) : Bool := issuesN 1 (group t) w

theorem issuesB_issues {t : Thread} {w : W64} (h : issuesB t w = true) :
    issues (threads (group t) w) here (group t) [0] w (fetched (group t) w) := issuesN_issues h

/-- Whether the first `n` threads of a group may name the codes that they read and write. -/
def codesB (n : Nat) (g : Group) (w : W64) (srcs dsts : List Nat) : Bool :=
  (List.range n).all (fun i => srcs.all (codeOk (threadAt g i) false) && dsts.all (codeOk (threadAt g i) true) &&
    !srcs.any (badCode (chOf (fetched g w) g.ch).winDepth (threadAt g i)))

theorem codesB_legal {n : Nat} {g : Group} {w : W64} {srcs dsts : List Nat} (h : codesB n g w srcs dsts = true) :
    codesLegal (fetched g w) g (List.range n) srcs dsts := by
  intro i hi
  have k := List.all_eq_true.mp h i hi
  simp only [Bool.and_eq_true, Bool.not_eq_true'] at k
  exact ⟨k.1.1, k.1.2, k.2⟩

/-- Whether an instruction word meets what a row of the tables asks for, on a thread outside trap context. -/
def rowB (r : AluRow) (w : W64) : Bool :=
  issuesB {} w && iOpc w % 0x80 == r.opc && r.ok w && codesB 1 (group {}) w (r.srcs w) (r.dsts w)

theorem rowB_meets {r : AluRow} {w : W64} (h : rowB r w = true) :
    issues (threads (group {}) w) here (group {}) [0] w (fetched (group {}) w) ∧ iOpc w % 0x80 = r.opc ∧ r.ok w = true ∧
      codesLegal (fetched (group {}) w) (group {}) [0] (r.srcs w) (r.dsts w) := by
  simp only [rowB, Bool.and_eq_true, beq_iff_eq] at h
  obtain ⟨⟨⟨h1, h2⟩, h3⟩, h4⟩ := h
  exact ⟨issuesB_issues h1, h2, h3, codesB_legal h4⟩

/-- An instruction word for each row of the tables. -/
def wordFor (opc : Nat) : W64 :=
  if opc = 0x24 then word opc 8 10 12 14 0 0
  else if opc = 0x30 then word opc 3 0 1 2 2 2
  else if opc = 0x32 then word opc 3 0 1 0 4 0
  else if opc = 0x3F then word opc 3 48 0 0 0 0
  else if opc = 0x61 then word opc 8 0 1 0 0 0
  else if opc = 0x1F then word opc 0 0 0 0 0 0
  else word opc 3 0 1 2 0 0

theorem all_rowB : (integerRows ++ floatRows ++ otherRows).all (fun r => rowB r (wordFor r.opc)) = true := by decide +kernel


/-! ## Single values from the manual's worked examples -/

/-- The operands that WellFormed refuses, one for each check. -/
theorem test_ill_formed_operands_are_refused :
    wellFormed (.registerWrite 0 0 []) = false ∧ wellFormed (.registerWrite 0 0 (List.replicate 513 (some 0))) = false ∧
    wellFormed (.counterLowRead 0 0 0) = false ∧ wellFormed (.counterLowRead 0 0 4097) = false ∧
    wellFormed (.timeFlit 0 [] []) = false ∧ wellFormed (.dataFlit 0 (List.replicate 255 0) []) = false ∧
    wellFormed (.idleFlit 0 (List.replicate 257 0) []) = false ∧ wellFormed (.apvSubmit none 0 []) = false ∧
    wellFormed (.trainFlit 0 (List.replicate 256 0) (List.replicate 3 ⟨0, 0⟩)) = false ∧ wellFormed (.bypass 0 2) = false ∧
    wellFormed (.currentWindow 0 []) = false ∧
    wellFormed (.checkMismatch 0 0 []) = false ∧ wellFormed (.bar2Read 0 0) = false ∧ wellFormed (.bar2Write 0 []) = false ∧
    wellFormed (.sourceBurstArrival 0 0 0 []) = false ∧ wellFormed (.sourceBurstArrival 0 0 1 [1, 2]) = false ∧
    wellFormed (.trainingComplete 0 ⟨0, 0, 0, none, 0, []⟩) = false ∧
    wellFormed (.cbistComplete 0 0 [⟨0, false, 0, 17⟩]) = false ∧ wellFormed (.pu2 []) = false ∧
    wellFormed (.pu3 ⟨[], [], [⟨0, false, 0, 17⟩]⟩) = false ∧ wellFormed (.budgetPeriod 0 []) = false ∧
    wellFormed (.energyWindow 0 0 []) = false ∧ wellFormed (.hkConversion 224 0) = false ∧
    wellFormed (.holdoffExpiry 0 64) = false ∧ wellFormed (.holdoffExpiry 1 62) = false ∧
    wellFormed (.pcieLinkUp 6 16) = false ∧ wellFormed (.pcieLinkUp 5 3) = false ∧
    wellFormed (.configurationRequest 1 true (.msixMask 62) 0) = false := by decide +kernel

/-- The check value of SPARK: SEED 0, STREAM 0, substream 0, position 0 (R262). -/
theorem test_spark_check_value : spark4 0 0 0 0 = (0x6627E8D5, 0xE169C58D, 0xBC57AC4C, 0x9B00DBD8) := by decide +kernel

/-- The worked FB4 block: 0.7, 0.3, -0.05 and 29 zeros quantise to 7, 4, 9 and 0 with scale 0x7C (Table NUM-8). -/
theorem test_fb4_block :
    let q := quantBlock ⟨4, 2, 1, 1, 2⟩ ([0x3F333333, 0x3E99999A, 0xBD4CCCCD] ++ List.replicate 29 0) (List.replicate 32 .rne)
    q.codes.take 4 = [7, 4, 9, 0] ∧ q.scale = 0x7C := by decide +kernel

/-- The worked INT32 to INT8 conversions with SHIFT 13: 122, and 127 with one saturation. -/
theorem test_int8_conversion :
    convScalar true 0 13 .rne 1000003 = (122, 0, 0) ∧ convScalar true 0 13 .rne 1200000 = (127, 1, 0) := by decide +kernel

/-- CRC-32C of the nine digits. -/
theorem test_crc32c : crc32c [0x31, 0x32, 0x33, 0x34, 0x35, 0x36, 0x37, 0x38, 0x39] = 0xE3069283 := by decide +kernel

/-- AES pieces from FIPS 197: SubBytes takes 0x53 to 0xED, and MixColumns the column DB 13 53 45 to 8E 4D A1 BC. -/
theorem test_aes_pieces :
    aesSub 0x53 = 0xED ∧ aesUnsub 0xED = 0x53 ∧
    (aesMix [2, 3, 1, 1] ([0xDB, 0x13, 0x53, 0x45] ++ List.replicate 12 0)).take 4 = [0x8E, 0x4D, 0xA1, 0xBC] ∧
    (aesMix [14, 11, 13, 9] ([0x8E, 0x4D, 0xA1, 0xBC] ++ List.replicate 12 0)).take 4 = [0xDB, 0x13, 0x53, 0x45] := by
  decide +kernel

/-- Register 3 of thread 0 after an instruction at `here` on registers 0, 1 and 2. -/
def after (c : Loc → Instr) (w : W64) (a b k : W32) : W32 :=
  match exec (c here) (threads (group { regs := [(0, a), (1, b), (2, k)] }) w) with
  | .next t => match groupAt t 0 0 with
    | some h => Tab.get 0 3 (threadAt h 0).regs
    | none => 0
  | _ => 0

/-- ADD.W wraps and ADDSAT.W of S32 does not; MULHI.W of U32; MAC.W. -/
theorem test_integer_steps :
    after .addW (wordFor 0x01) 0xFFFFFFFF 2 0 = 1 ∧ after .addsatW (wordFor 0x10) 0x7FFFFFFF 1 0 = 0x7FFFFFFF ∧
    after .mulhiW (word 0x04 3 0 1 0 1 0) 0xFFFFFFFF 0xFFFFFFFF 0 = 0xFFFFFFFE ∧
    after .mulhiW (word 0x04 3 0 1 0 0 0) 0xFFFFFFFF 0xFFFFFFFF 0 = 0 ∧
    after .macW (wordFor 0x05) 3 4 0xFFFFFFFF = 11 ∧ after .subW (wordFor 0x02) 1 2 0 = 0xFFFFFFFF := by decide +kernel

/-- ADD.F keeps the even neighbour; MAC.F rounds once; CMP.F of a NaN under NE is 1 and under EQ 0; RECIP of 0. -/
theorem test_float_steps :
    after .addF (wordFor 0x20) 0x3F800000 0x33800000 0 = 0x3F800000 ∧
    after .macF (wordFor 0x23) 0x3F800001 0x3F800001 0xBF800002 = 0x28800000 ∧
    after .cmpF (word 0x27 3 0 1 0 0 1) 0x7FC00000 0 0 = 1 ∧ after .cmpF (word 0x27 3 0 1 0 0 0) 0x7FC00000 0 0 = 0 ∧
    after .recip (wordFor 0x38) 0x80000000 0 0 = 0xFF800000 := by decide +kernel

/-- A queue is served from its front: ENABLE of the PF takes chamber 0 from IDLE to RUNNING. -/
theorem test_enable_step :
    (match step { in0 .idle with pending := [.enable 0 0, .retrain 0 false] } with
     | .next t => (chOf t 0).st == .running && t.pending == [.retrain 0 false]
     | _ => false) = true := by decide +kernel

/-- The worked exact group: four products of 1.0 times 1.0 scaled by 2 to the -20 enter 16.0 as 2 to the -18. -/
theorem test_exact_group :
    (enterF32 0x41800000 (groupVal 3 3 (List.replicate 4 (0x38, 0x75)) (List.replicate 4 (0x38, 0x75)))).1 = 0x41800002 := by
  decide +kernel

/-- The worked BF16 sticky tie: 1 plus 2 to the -24 plus a product below the window rounds up. -/
theorem test_bf16_sticky :
    (enterF32 0 (groupVal 7 7 [(0x3F80, 127), (0x3980, 127), (0x1F00, 127), (0, 127)]
      [(0x3F80, 127), (0x3980, 127), (0x1F00, 127), (0, 127)])).1 = 0x3F800001 := by decide +kernel

/-- The worked window address: with slices of 12 MiB, 0x4C0_1234 is offset 0x40_1234 of core 6's slice, in layer 1
(R173). -/
theorem test_window_slice :
    let s := with0 { chamber .idle with clusters := 0xFFFF }
    let u := { s with img := { s.img with echo0 := 64 } }
    winLoc u (chOf u 0) 0x4C01234 = some (6, 0x401234) ∧ (layerOf 0x401234).1 = 1 := by decide +kernel

/-! ## Witnesses: queue, memory, registers -/

theorem witness_IdleStepIsOneNanosecond :
    (rdy.pending = [] ∧ clockOn rdy = true ∧ rdy.mtb.slew = 0) ∧
    (State.reset.pending = [] ∧ clockOn State.reset = false) := by decide +kernel

theorem witness_WellFormedCommandsComplete : wellFormed .reload = true := by decide

theorem witness_CommandsLeaveTheQueue : ∃ t, exec .getVersion rdy = .next t := ⟨_, rfl⟩

theorem witness_OnlyTimeFlitsSetTheClock :
    clockOn rdy = true ∧ ∃ t, exec .getVersion rdy = .next t ∧ clockOn t = true := ⟨by decide +kernel, _, rfl, by decide +kernel⟩

theorem witness_StepsKeepMemoryCanonical :
    memOk rdy = true ∧ ∃ t, step rdy = .next t := ⟨by decide +kernel, _, rfl⟩

theorem witness_MemoriesKeepWhatIsWritten :
    (32 % 32 = 0 ∧ (List.replicate 32 (7 : W8)).length % 32 = 0 ∧ List.replicate 32 (7 : W8) ≠ [] ∧
      32 + (List.replicate 32 (7 : W8)).length ≤ winSize (in0 .idle) (chOf (in0 .idle) 0)) ∧
    (winLoc (in0 .idle) (chOf (in0 .idle) 0) 0 = some (0, 0) ∧ 0 < 32) ∧
    ((0 < coreKey 0 4 ∨ coreKey 0 4 + 4 ≤ 0) ∧ (8 < coreKey 0 4 ∨ coreKey 0 4 + 4 ≤ 8)) := by decide +kernel

theorem witness_CounterPairsReadTogether :
    (fnUp rdy 0 = true ∧ (0x100#26).toNat % 4 = 0 ∧ (0x100#26).toNat + 4 ≤ barSize 0 ∧
      noBlock rdy (placeOf rdy 0 0x100) = false ∧ isPairLow (placeOf rdy 0 0x100) = true) ∧
    ((0x104#26).toNat % 4 = 0 ∧ 4 ≤ (0x104#26).toNat ∧ (0x104#26).toNat + 4 ≤ barSize 0 ∧
      noBlock rdy (placeOf rdy 0 0x104) = false ∧ isPairLow (placeOf rdy 0 0x104) = false ∧
      isPairLow (below (placeOf rdy 0 0x104)) = true) ∧
    defined (in0 .idle) 0 = true := by decide +kernel

theorem witness_RegisterWordsAreWrittenWhole :
    served rdy 0 ∧ (0x0C00#26).toNat % 4 = 0 ∧ (0x0C00#26).toNat + 4 ≤ barSize 0 ∧ isBuffer (0x0C00#26).toNat = false ∧
    wordExists rdy (placeOf rdy 0 0x0C00) = true ∧ [some (1 : W8), none, none, none].any (·.isSome) = true ∧
    [some (1 : W8), none, none, none].any (·.isNone) = true := by unfold served; decide +kernel

theorem witness_ReservedRangesReadZeroAndDiscard :
    (served rdy 0 ∧ fnUp rdy 0 = true ∧ (0x10#26).toNat % 4 = 0 ∧ (0x10#26).toNat + 4 ≤ barSize 0 ∧
      isBuffer (0x10#26).toNat = false ∧ wordExists rdy (placeOf rdy 0 0x10) = false ∧
      [some (1 : W8), some 2, none, none].length = 4) ∧
    (defined rdy 3 = false ∧ wordExists rdy (placeOf rdy 0 0x10C0000) = false) ∧
    placeOf { in0 .idle with pcie := { rdy.pcie with vfEnable := true, vfCount := 1 } } 1 0x10 = .chm 0 0x10 := by
  unfold served; decide +kernel
/-! ## Witnesses: chambers, approval, flowstone, management -/

/-- An approval state with a change list of one word. -/
def apvIn (st : ApvState) : Apv :=
  { state := st, buf := [(0x14, 1)], id := 1, hash := List.replicate 48 0, deadline := 2000000, needOwner := true,
    record := [(0, 0x52565041), (1, 1), (2, 1)] }

/-- Chamber 0 with an approval state. -/
def apv0 (a : Apv) : State := with0 { chamber .idle with apv := a }

/-- The Ready module with an established session of id 7. -/
def sess7 (s : State) : State := { s with spdm := { version := true, caps := true, algs := true, sessions := [7] } }

theorem witness_EnableAndHaltMoveTheChamber :
    reaches (in0 .idle) 0 0 ∧ (chOf (in0 .idle) 0).st = .idle ∧ bit (flowAt (in0 .idle) 1) 12 = false ∧
    (chOf (in0 .running) 0).st = .running ∧ (chOf (in0 .running) 0).ops = [] ∧ reaches (in0 .halted) 0 0 ∧
    (chOf (in0 .halted) 0).st = .halted := by
  unfold reaches served; decide +kernel

theorem witness_ResetClearsTheChamber :
    reaches (in0 .halted) 0 0 ∧ (chOf (in0 .halted) 0).st = .halted ∧ ownsCore (chOf (in0 .halted) 0) 15 = true ∧
    reaches (in0 .clearing) 0 0 ∧ (chOf (in0 .clearing) 0).st = .clearing := by unfold reaches served; decide +kernel

theorem witness_ClearingAndInvalidationEnd :
    let c := { chamber .clearing with invBusy := true }
    (chOf (with0 c) 0).st = .clearing ∧ (chOf (with0 c) 0).invBusy = true ∧ (chOf (with0 c) 0).haltPend = none ∧
    (chOf (with0 { c with haltPend := some 0x1003 }) 0).haltPend = some 0x1003 ∧ reaches (with0 c) 0 0 ∧
    (chOf (in0 .idle) 0).invBusy = false := by unfold reaches served; decide +kernel

theorem witness_OwnerCredentialIsInstalledOnce :
    (reaches (in0 .idle) 0 0 ∧ (chOf (in0 .idle) 0).st = .idle ∧ (chOf (in0 .idle) 0).ownerSet = false) ∧
    (reaches (in0 .running) 0 0 ∧ (chOf (in0 .running) 0).st ≠ .idle ∧ (chOf (in0 .running) 0).ownerSet = false) ∧
    (let s := with0 { chamber .idle with ownerSet := true }
     reaches s 0 0 ∧ (chOf s 0).ownerSet = true ∧ apvClosed (chOf s 0).apv = false ∧ apvFull (chOf s 0).apv 0x40 = false) ∧
    (let s := sess7 (in0 .idle)
     reaches s 0 0 ∧ (chOf s 0).ownerSet = false ∧ answersAll s = true ∧ secured s (some 7) = true ∧
     scopeOf s 0 = some (.chamber 0)) := by
  unfold reaches served; decide +kernel

theorem witness_OwnerApprovalCommands :
    (∀ st, st ∈ [ApvState.empty, .collecting, .proposed, .committing] → reaches (apv0 (apvIn st)) 0 0) ∧
    (apvClosed (apvIn .collecting) = false ∧ proposeRefusal (counted (apv0 (apvIn .collecting)) 0 0x100) (.chamber 0) = 0) ∧
    (let a := apvIn .proposed
     a.state = .proposed ∧ recordForm (.chamber 0) 1 (apvRec a) = true ∧ a.ownerIn = false ∧
     now (apv0 a) < a.deadline.toNat ∧ recordMatches a (apvRec a) = true ∧ a.needOwner = true ∧ a.operatorIn = false) ∧
    apvClosed (apvIn .committing) = true := by unfold reaches served; decide +kernel

theorem witness_OperatorApprovalCommands :
    let s := fun a => sess7 (apv0 a)
    let rcd := 0x41#8 :: 0x50 :: 0x56 :: 0x52 :: 2 :: 0 :: 0 :: 0 :: 1 :: List.replicate 183 0
    (∀ st, st ∈ [ApvState.empty, .collecting, .proposed] → answersAll (s (apvIn st)) = true) ∧
    scopeOf (s (apvIn .empty)) 0 = some (.chamber 0) ∧ secured (s (apvIn .empty)) (some 7) = true ∧
    bufMask (s (apvIn .empty)) (.chamber 0) 0x14 = some 0xF ∧ apvClosed (apvIn .empty) = false ∧
    apvFull (apvIn .empty) 0x14 = false ∧ proposeRefusal (s (apvIn .collecting)) (.chamber 0) = 0 ∧
    (rcd.length = 192 ∧ now (s (apvIn .proposed)) < (apvIn .proposed).deadline.toNat ∧ recordForm (.chamber 0) 2 rcd = true ∧
      (apvIn .proposed).operatorIn = false ∧ recordMatches (apvIn .proposed) rcd = true ∧
      (apvIn .proposed).needOwner = true ∧ (apvIn .proposed).ownerIn = false) ∧
    secured (s (apvIn .empty)) none = false := by decide +kernel

theorem witness_ProposalsOpenExpireAndCommit :
    (let s := { apv0 (apvIn .proposed) with time := 2000000 }
     (apvOf s (.chamber 0)).state = .proposed ∧ (apvOf s (.chamber 0)).deadline.toNat ≤ s.time.toNat) ∧
    (apv0 (apvIn .proposed)).time.toNat < (apvOf (apv0 (apvIn .proposed)) (.chamber 0)).deadline.toNat ∧
    (let s := apv0 (apvIn .committing)
     (chOf s 0).apv.state = .committing ∧ (chOf s 0).apv.buf = [(0x14, 1)] ∧ bit 1 3 = false) := by decide +kernel

theorem witness_FlowstoneWritesFollowBusyAndWear :
    (rdy.flowBusy = false ∧ worn rdy 5 = false) ∧ worn { rdy with wear := [(5, 100000)] } 5 = true ∧
    (let s := { rdy with flowBusy := true }
     s.flowBusy = true ∧ s.flowQueue = []) := by decide +kernel

theorem witness_RotationRewritesOneUnit :
    let s := with0 { chamber .rotating with oldKey := 2 }
    (chOf s 0).st = .rotating ∧ nextUnit (chOf s 0) (chOf s 0).rotPtr = some 0 ∧ 0 % 64 = 0 ∧ Tab.get 0 (0 / 64) s.bulkErr = 0 ∧
    (nextUnit (chOf s 0) (0 + 64) = some 64 ∧ (nextUnit (chOf s 0) 64).isSome = true) ∧ s.merge = [] ∧ s.bar2Wait = [] := by
  decide +kernel

theorem witness_DebugReadsShowTheTarget :
    (let s := with0 { chamber .idle with regs := [(0x14, 4)] }
     served s 0 ∧ dbgPlace (countedG s 0x400000) 0 = some (0, 0, false)) ∧
    (served rdy 0 ∧ dbgPlace (countedG rdy 0x800000) 1 = none) ∧
    bit (dbgGet { rdy with dbg := [(4, 1)] } 0 4) 0 = true := by unfold served; decide +kernel

theorem witness_SpdmIdentifiesAndOpensSessions :
    answers (sess7 rdy) = true ∧ answersAll (sess7 rdy) = true ∧ (sess7 rdy).spdm.version = true ∧
    (sess7 rdy).spdm.caps = true ∧ (sess7 rdy).spdm.algs = true ∧ rdy.spdm.algs = false ∧ (1 : W8) ≠ 0 ∧
    ({ rdy with spdm := { opening := [9] } }).spdm.opening.any (sameHalf 9) = true ∧
    (sess7 rdy).spdm.sessions.contains 7 = true ∧ 1 ≤ (1#8).toNat ∧ (1#8).toNat ≤ 3 ∧ rdy.spdm.sessions.contains 7 = false := by
  decide +kernel

theorem witness_MeasurementsAndMailboxAnswer :
    (answersAll (sess7 rdy) = true ∧ (sess7 rdy).spdm.algs = true ∧ 1 ≤ (7#8).toNat ∧ (7#8).toNat ≤ 7) ∧
    (served rdy 0 ∧ rdy.mbxCmd = none) ∧
    (served { rdy with mbxCmd := some 1 } 0 ∧ ({ rdy with mbxCmd := some 1 }).mbxCmd.isSome = true) ∧
    ({ rdy with mbxCmd := some 3 }).mbxCmd = some 3 ∧ fld 4 7 0 = 4 := by unfold served; decide +kernel

theorem witness_ManagementCommandsAnswer :
    (answersAll (sess7 rdy) = true ∧ (0x100#32).toNat % 4 = 0 ∧ (0x100#32).toNat < 0x400000 ∧ (0x400000#32).toNat ≥ 0x400000 ∧
      secured (sess7 rdy) (some 7) = true ∧ (sess7 rdy).flowBusy = false ∧ worn (sess7 rdy) 384 = false ∧
      isReady (sess7 rdy) = true ∧ secured (sess7 rdy) none = false) ∧
    (let s := sess7 { rdy with power := { rdy.power with phase := .standby } }
     answersAll s = true ∧ secured s (some 7) = true ∧ isReady s = false) ∧
    (answers rdy = true ∧ rdy.firmware.booted = 1 ∧ answers { rdy with firmware := { booted := 2 } } = true) ∧
    (bit (gget 0x218 rdy) 0 = false ∧ bit (gget 0x218 { rdy with g := [(0x218, 1)] }) 0 = true ∧
      isReady State.reset = false) := by decide +kernel
/-! ## Witnesses: registers of a chamber, sweeps, raw access -/

theorem witness_DoorbellsMoveTheTail :
    let s := with0 (ch0 [(0xA08, 6)] [])
    (reaches s 0 0 ∧ 0 < (chOf s 0).alcoves ∧ (chOf s 0).st ≠ .clearing ∧ (0xF0000005#32).toNat % 2 ^ 20 < listSize (chOf s 0) 0 ∧
      ((Tab.get {} 0 (chOf s 0).lists).tail + listSize (chOf s 0) 0 - (Tab.get {} 0 (chOf s 0).lists).head) %
          listSize (chOf s 0) 0 ≤
        ((0xF0000005#32).toNat % 2 ^ 20 + listSize (chOf s 0) 0 - (Tab.get {} 0 (chOf s 0).lists).head) % listSize (chOf s 0) 0) ∧
    listSize (chOf s 0) 0 ≤ (64#32).toNat % 2 ^ 20 ∧ (chOf s 0).alcoves ≤ 1 := by unfold reaches served; decide +kernel

theorem witness_ConfigurationIsWrittenOnlyInIdle :
    (reaches (in0 .idle) 0 0 ∧ (chOf (in0 .idle) 0).st = .idle ∧ 0 < (chOf (in0 .idle) 0).alcoves) ∧
    (fld 0 4 0 = 0 ∧ 6 ≤ fld 20 4 0 ∧ fld 20 4 0 ≤ 20) ∧
    (0x10000#32 &&& 0xFFFF0000#32).toNat + 2 ^ 32 * (creg (in0 .idle) 0 0x914).toNat + 64 * fld (creg (in0 .idle) 0 0x918) 18 0 ≤
      winSize (in0 .idle) (chOf (in0 .idle) 0) ∧
    (creg (in0 .idle) 0 0x910).toNat + 2 ^ 32 * (0#32 &&& 3#32).toNat + 64 * fld (creg (in0 .idle) 0 0x918) 18 0 ≤
      winSize (in0 .idle) (chOf (in0 .idle) 0) ∧
    (2 ^ Nat.log2 (fld 4 18 0) = fld 4 18 0 ∧ otherStreams (in0 .idle) 0 + fld 4 18 0 ≤ 262144 ∧
      cpair 0x910 (chOf (in0 .idle) 0) + 64 * fld 4 18 0 ≤ winSize (in0 .idle) (chOf (in0 .idle) 0)) ∧
    fld 0x1000FFF 11 0 + fld 0x1000FFF 24 12 > 4096 ∧ fld 0xFFF 11 0 + fld 0xFFF 24 12 ≤ 4096 ∧ fld 5 2 1 ≠ 3 ∧
    (6 ≤ fld 30 4 0 ∧ fld 30 4 0 ≤ 30) ∧
    (reaches (in0 .running) 0 0 ∧ (chOf (in0 .running) 0).st ≠ .idle) := by unfold reaches served; decide +kernel

theorem witness_CountersAreWrittenAndAdded :
    reaches (in0 .running) 0 0 ∧ (chOf (in0 .running) 0).ops = [] ∧ (chOf (in0 .running) 0).ash = [] ∧ 4095 ≠ (0#12).toNat := by
  unfold reaches served; decide +kernel

theorem witness_SweepsRunOverTheirWords :
    (let s := with0 (ch0 [(0x1084, 8), (0x1090, 0x1000)] [])
     reaches s 0 0 ∧ swpRefused (counted s 0 0x1080) (.chamber 0) = false ∧ swpState s (.chamber 0) ≠ 1) ∧
    swpRefused (counted (in0 .idle) 0 0x1080) (.chamber 0) = true ∧
    (let s := fun (v : Tab Bool) => { with0 (ch0 [(0x1084, 8), (0x1090, 0x1000), (0x1098, 1)] []) with galValid := v }
     swpState (s []) (.chamber 0) = 1 ∧ reaches (s []) 0 0 ∧ swpSpace (s []) (.chamber 0) = 0 ∧
     winLoc (s []) (chOf (s []) 0) (swpPair (s []) (.chamber 0) 0x1C) = some (0, 0) ∧
     swpPair (s []) (.chamber 0) 0x1C + 32 < swpPair (s []) (.chamber 0) 8 + swpPair (s []) (.chamber 0) 0x10 ∧
     swpPair (s []) (.chamber 0) 0x1C + 32 < 2 ^ 64 ∧
     Tab.get false (galKey 0 0 / 32) (s [(0, true)]).galValid = true ∧ Tab.get 0 (galKey 0 0 / 32) (s []).galErr = 0 ∧
     Tab.get false (galKey 0 0 / 32) (s []).galValid = false) := by unfold reaches served; decide +kernel

/-- Two chambers, as raw access asks. -/
def two : State := { setCh 1 { chamber .idle with vf := 2, clusters := 2 } (in0 .idle) with galValid := [(0, true)] }

theorem witness_RawAccessReadsAndWritesWords :
    (reaches two 0 0 ∧ rawRefused two 0 = false ∧ winLoc two (chOf two 0) (cpair 0x1024 (chOf two 0)) = some (0, 0) ∧
      Tab.get false (galKey 0 0 / 32) two.galValid = true) ∧
    (reaches (in0 .idle) 0 0 ∧ rawRefused (in0 .idle) 0 = true) := by unfold reaches served; decide +kernel

theorem witness_EventRingsAreConfiguredWhileOff :
    (reaches (in0 .idle) 0 0 ∧ bit (creg (in0 .idle) 0 0x1200) 0 = false ∧ bit 1 0 = true) ∧
    (let s := with0 (ch0 [(0x1200, 1), (0x1204, 6)] [])
     reaches s 0 0 ∧ bit (creg s 0 0x1200) 0 = true ∧ 7 &&& 0x1F#32 ≠ creg s 0 0x1204) := by unfold reaches served; decide +kernel

/-! ## Witnesses: operations -/

/-- A running chamber whose list 0 holds one descriptor, a WAIT, at entry 0. -/
def listed : State :=
  paged { ch0 [(0xA08, 6)] [] with lists := [(0, { tail := 1 })] } (descOf 8 [])

theorem witness_DescriptorsAreFetchedAndStaged :
    (nextFetch (chOf listed 0) = some 0 ∧ nextFetch (chOf (in0 .idle) 0) = none ∧ mayFetch (chOf listed 0) 0 = true ∧
      (bulkLoad 0 (agent 4) (entryAddr (chOf listed 0) 0 (Tab.get {} 0 (chOf listed 0).lists).fetch) 128 false listed).1.toOption =
        some (descOf 8 []) ∧
      (let t := (bulkLoad 0 (agent 4) 0 128 false listed).2
       let r := takeEntry 0 0 (descOf 8 []) t
       headerBad r.1 = false ∧ bodyRefusal 0 r.1 r.2 = none ∧ mayFetch (chOf (stageOp 0 r.1 r.2) 0) 0 = false)) ∧
    mayFetch (chOf (in0 .idle) 0) 0 = false := by decide +kernel

theorem witness_OperationsStartWhenTheyMay :
    (let o := opIn .staged (descOf 8 [])
     (listOps (chOf (op1 o) 0) 0).find? (fun q => q.state == .staged) = some o ∧ isRunning (op1 o) 0 = true ∧
     isMatrix (opType o) = false ∧ startable (op1 o) 0 o = true ∧ (chOf (op1 o) 0).st = .running ∧
     engineFree (chOf (op1 o) 0) 0 = true ∧ chainOf (chOf (op1 o) 0) 0 = none) ∧
    (let o := opIn .staged (descOf 1 [])
     (listOps (chOf (op1 o) 0) 0).find? (fun q => q.state == .staged) = some o ∧ isMatrix (opType o) = true ∧
     choose (op1 o) 0 0 = some (o, false)) ∧
    (let o := { opIn .staged (descOf 1 []) with banked := true, inQueue := true }
     let s := op1 o
     choose s 0 0 = some (o, false) ∧ bankHead (chOf s 0) 0 = some o ∧ bankForced s (chOf s 0) o = false) ∧
    (let o := { opIn .staged (descOf 1 []) with banked := true, inQueue := true }
     let s := with0 (ch0 [(0xC04, 1)] [o])
     choose s 0 0 = some (o, true) ∧ bankHead (chOf s 0) 0 = some o ∧ bankForced s (chOf s 0) o = true ∧
     engineFree (chOf s 0) 0 = true ∧ chainOf (chOf s 0) 0 = none) ∧
    engineFree (chOf (op1 (opIn .executing (descOf 1 []))) 0) 0 = false := by decide +kernel

theorem witness_RetirementCountsOnlyWhenOk :
    (doneInc (opIn .retiring (descOf 8 [(6, 1)])) ≠ 0 ∧ Status.fault ≠ .ok) ∧
    (let o := opIn .retiring (descOf 8 [])
     opOf (chOf (op1 o) 0) 0 = some o ∧ o.state = .retiring) ∧
    (let o := opIn .staged (descOf 8 [])
     opOf (chOf (op1 o) 0) 0 = some o ∧ o.state ≠ .retiring) := by decide +kernel

/-- A MATMUL of 8 rows and 1 column over 1 K step of E4M3 to FP32 in the gallery, under a CONTROL byte. -/
def mulOp (ctl : W8) : Op := opIn .executing (descOf 1 [(0x40, 8), (0x44, 1), (0x48, 1), (0x54, 32), (0x58, 3), (0x59, 3), (0x5A, 8), (0x5C, ctl)])

/-- A CONV of 1 position, 8 channels out and 1 in, to FP32 in the gallery. -/
def convOp : Op := opIn .executing (descOf 2
  [(0x44, 1), (0x46, 8), (0x48, 1), (0x4A, 1), (0x4C, 1), (0x4D, 1), (0x50, 1), (0x58, 3), (0x59, 3), (0x5A, 8)])

/-- Whether a matrix operation computes, and then leaves its chain open, or writes what it has to. -/
def matDone (joined : Bool) (o : Op) (s : State) : Bool :=
  match matCompute 0 o (linkedTo (chOf s 0) o) s with
  | (.ok (.ok ts), t) =>
    let ps := if accOut o = 1 then [] else outParts o ts
    let u := matCounts 0 o ts ps t
    !keptSat (chOf s 0) o && nextJoins 0 o u == joined && (joined || (outputParts 0 o ps u).1.toBool)
  | _ => false

/-- A KEEP after a tile set that has saturated. -/
def keptOp : State :=
  with0 { ch0 [] [mulOp 0x20] with held := [(0, some { m := 8, n := 1, p := 1, cores := [0], sat := [true] })] }

/-- An UPDATE of 64 elements, whose norm stands at bulk address 0 where `flags` says that it waits for one. -/
def updOp (flags : W8) : Op := opIn .executing (descOf 6 [(0x40, 64), (0x58, 64), (0x61, flags), (0x38, 0), (0x60, 0x10)])

/-- The FP32 at bulk address 0 of a running chamber with one operation. -/
def withWord (w : Nat) (regs : Tab W32) (o : Op) : State := paged (ch0 regs [o]) (natLe 4 w)

/-- What an UPDATE reads first, and the sum of its norm. -/
def updSum (s : State) (o : Op) : Option (Params × W32) :=
  match bulkLoad 0 (agent 1) (df o 0x40 8) 64 false s with
  | (.ok bs, t) => (match dLoad 0 (agent 1) (df o 0x60 4 / 2 ^ 4 % 4) (df o 0x38 8) 4 t with
    | (.ok sb, _) => some (paramsOf bs, BitVec.ofNat 32 (leNat sb))
    | _ => none)
  | _ => none

theorem witness_MatrixOperations :
    (∀ d ∈ [mulOp 0, mulOp 0x40, convOp], executing (op1 d) 0 0 [(opType d)] = some d ∧ d.begun = false ∧
      matDone false d (op1 d) = true) ∧
    (let x := { mulOp 0 with banked := true }
     let y := { opIn .staged (mulOp 0x10).desc with banked := true, inQueue := true, seq := 1 }
     matDone true x (with0 (ch0 [] [x, y])) = true) ∧
    (keptSat (chOf keptOp 0) (mulOp 0x20) = true ∧
     (matCompute 0 (mulOp 0x20) false keptOp).1.toBool = true) := by decide +kernel

theorem witness_ReductionsAndUpdates :
    (∀ re ∈ [(0 : W8), 1], let o := opIn .executing (descOf 5 [(0x20, 1), (0x28, 8), (0x2B, re)])
      let s := with0 { ch0 [] [o] with peers := [(0, 1)] }
      executing s 0 0 [5] = some o ∧ o.begun = false ∧ 0 < df o 0x20 8 ∧ df o 0x2B 1 = re.toNat ∧
      (dLoad 0 (agent 2) (df o 0x2A 1) (df o 0x10 8) (4 * df o 0x20 8) s).1.toBool = true ∧
      (dStore 0 (agent 2) (df o 0x2C 1) (df o 0x18 8) (List.replicate 64 0) s).1.toBool = true ∧
      badRemote (chOf s 0) (df o 0x18 8) = false) ∧
    (let o := opIn .executing (descOf 6 [(0x40, 64), (0x58, 64)])
     let s := withWord 0 [] o
     executing s 0 0 [6] = some o ∧ df o 0x60 4 / 2 ^ 9 % 2 = 0 ∧
     (match bulkLoad 0 (agent 1) (df o 0x40 8) 64 false s with
      | (.ok bs, t) => (eachRes (doUnit 0 o (paramsOf bs) 0x3F800000) (List.range (df o 0x58 4 / 64)) t).1.toBool
      | _ => false) = true) ∧
    (∀ p ∈ [(0, true), (0xBF800000, false)], let s := withWord p.1 [] (updOp 2)
      executing s 0 0 [6] = some (updOp 2) ∧ df (updOp 2) 0x60 4 / 2 ^ 9 % 2 = 1 ∧
      (updSum s (updOp 2)).map (fun r => (clipFactor r.1 (creg s 0 0xE00) (sqrtF r.2)).isSome) = some p.2) := by
  decide +kernel

theorem witness_SealsReadTheirLoss :
    (let o := opIn .executing (descOf 0xB [])
     executing (op1 o) 0 0 [0xB] = some o ∧ df o 0x14 4 % 2 = 0) ∧
    (∀ p ∈ [(0, 0, false), (0x7FC00000, 0, true), (0x7FC00000, 0x10, true)],
      let o := opIn .executing (descOf 0xB [(0x14, 3)])
      let s := withWord p.1 [(0xE28, BitVec.ofNat 32 p.2.1)] o
      executing s 0 0 [0xB] = some o ∧ df o 0x14 4 % 2 = 1 ∧
      (match dLoad 0 (agent 4) (df o 0x14 4 / 2 % 2) (df o 0x18 8) 4 s with
       | (.ok lb, t) => (detect (chOf t 0) (BitVec.ofNat 32 (leNat lb))).1 == p.2.2 && bit (creg t 0 0xE28) 4 == (p.2.1 == 0x10)
       | _ => false) = true) := by decide +kernel

/-- An executing SNAPSHOT with a destination space. -/
def snapOp (space : W8) : Op := opIn .executing (descOf 0xA [(0x18, space)])

/-- That SNAPSHOT, whose bank 0 latches at a time; the islands are stopped. -/
def snapping (space : W8) (target : W64) : State :=
  let c := { ch0 [] [snapOp space] with snap := some { target := target, snapId := 0, base := 0, left := [0] } }
  { with0 c with power := { phase := .standby } }

theorem witness_SnapshotsWaitForTheirBanks :
    (∀ p ∈ [(0, 2000), (2, 2000), (0, 5000000)],
      let o := snapOp (BitVec.ofNat 8 p.1)
      let s := snapping (BitVec.ofNat 8 p.1) (BitVec.ofNat 64 p.2)
      executing s 0 0 [0xA] = some o ∧ o.start.toNat + 2000 ≤ s.time.toNat ∧ df o 0x18 1 = p.1 ∧
      (chOf (snapTick 0 s) 0).snap.map (fun r => r.left.isEmpty) = some (p.2 == 2000) ∧
      (dStore 0 (agent 4) 0 0 (List.replicate 64 0) (snapTick 0 s)).1.toBool = true) := by decide +kernel

/-- A TRANSFER whose stream has a source space. -/
def moving (space : W8) : State :=
  let t : Stream := { st := 1, spaces := space, length := 64 }
  { with0 { ch0 [] [opIn .executing (descOf 4 [])] with streams := [(0, t)], peers := [(0, 1)] } with
    pcie := { rdy.pcie with busMaster := [(0, true)] } }

theorem witness_TransfersAskForTheirSource :
    (∀ sp ∈ [(1 : W8), 2, 3], let s := moving sp
      let t := streamAt (chOf s 0) (streamOf (opIn .executing (descOf 4 [])))
      (executing s 0 0 [4]).isSome = true ∧ streamLive t = true ∧ arrivedBytes t < t.length ∧ srcSpace t = sp.toNat ∧
      canIssue s (chFn s 0) = true ∧ s.hostReads = [] ∧ (chOf s 0).reqs = [] ∧
      badRemote (chOf s 0) (t.src.toNat + arrivedBytes t) = false) := by decide +kernel

/-- A KERNEL of one block of one group, with 64 bytes of spill space a thread. -/
def kern : Op := opIn .executing (descOf 3 [(0x28, 1), (0x2C, 32), (0x30, 64)])

theorem witness_KernelsPlaceTheirBlocks :
    (executing (op1 kern) 0 0 [3] = some kern ∧ kern.blocksPlaced < kBlocks kern ∧
      earlierPlaced (chOf (op1 kern) 0) kern = true ∧ (placeBlock 0 kern (op1 kern)).isSome = true ∧ kern.blocksPlaced = 0) ∧
    (let s := setCh 0 { ch0 [] [kern] with clusters := 0, masks := [0] } rdy
     executing s 0 0 [3] = some kern ∧ placeBlock 0 kern s = none) ∧ 5 ≠ 127 := by decide +kernel

theorem witness_SignalsWaitsAndStreams :
    (let o := opIn .executing (descOf 7 [(0x10, 0xFF), (0x12, 3)])
     executing (op1 o) 0 0 [7] = some o ∧ df o 0x10 1 = 0xFF ∧ df (opIn .executing (descOf 7 [])) 0x10 1 ≠ 0xFF) ∧
    (let o := opIn .executing (descOf 8 [])
     executing (op1 o) 0 0 [8] = some o ∧ (chOf (op1 o) 0).ops = o :: [] ∧ (chOf (op1 o) 0).ash = [] ∧ o.state = .executing ∧
     opType o = 8 ∧ waitHolds (chOf (op1 o) 0) o = true) ∧
    (let t : Stream := { st := 1, spaces := 1, length := 64 }
     let s := paged { ch0 [] [] with streams := [(0, t)] } []
     streamAt (chOf s 0) 0 = t ∧ streamLive t = true ∧ srcSpace t ≤ 1 ∧ (localBurst 0 t 64 s).1.toBool = true ∧
     (localBurst 0 { t with src := 0x200000 } 64 s).1.toBool = false ∧ srcSpace { t with spaces := 2 } = 2 ∧
     0 < arrivedBytes t + 63 ∧ t.held.length + (List.replicate 63 (0 : W8)).length < 64 ∧
     t.st = 1 ∧ arrivedBytes t < t.length ∧ t.lastProgress.toNat + 1000 ≤ s.time.toNat) ∧
    (let t : Stream := { st := 1, spaces := 3, length := 64, lastProgress := 999999 }
     let r : HostRead := { tag := 0, fn := 1, ch := 0, seq := 0, stream := 0, addr := 0, len := 64, issued := 0 }
     let s := { with0 { ch0 [] [] with streams := [(0, t)] } with hostReads := [r] }
     streamAt (chOf s 0) 0 = t ∧ streamLive t = true ∧ srcSpace t = 3 ∧
     s.hostReads.find? (fun r => r.ch == 0 && r.stream == 0 && r.seq == t.seq) = some r ∧
     s.time.toNat < t.lastProgress.toNat + 1000) ∧
    streamLive (streamAt (chOf (in0 .running) 0) 0) = false := by decide +kernel

theorem witness_TimeLimitsFailTheOperation :
    (∀ k ∈ [8, 3],
      let o := opIn .executing (descOf (BitVec.ofNat 8 k) [(8, 1)])
      executing (op1 o) 0 0 [k] = some o ∧ (op1 o).time.toNat ≤ o.start.toNat + waitTmo (chOf (op1 o) 0) o ∧
      (op1 o).time.toNat ≤ o.start.toNat + kernelTmo (chOf (op1 o) 0) o ∧
      (let s := { op1 o with time := 1000001 }
       executing s 0 0 [k] = some o ∧ o.start.toNat + waitTmo (chOf s 0) o < s.time.toNat ∧
       o.start.toNat + kernelTmo (chOf s 0) o < s.time.toNat)) ∧
    (let o := { opIn .executing (descOf 9 [(0x14, 1)]) with begun := true }
     executing (op1 o) 0 0 [9] = some o ∧ o.begun = true ∧ o.start.toNat + 1000000 * df o 0x14 4 ≤ (op1 o).time.toNat ∧
     ({ op1 o with time := 999999 }).time.toNat < o.start.toNat + 1000000 * df o 0x14 4) ∧
    (let o := { opIn .staged (descOf 6 [(0x61, 2), (0x68, 1)]) with waitFrom := some 0 }
     opOf (chOf (op1 o) 0) 0 = some o ∧ o.waitFrom = some 0 ∧ opType o = 6 ∧ o.state = .staged ∧
     normMet (chOf (op1 o) 0) o = false ∧
     0 + 1000000 * max 1 (fld (creg (op1 o) 0 0x900) 15 0) ≤ (op1 o).time.toNat) ∧
    (let r : AshWait := { seq := 0, bytes := [], isSeal := false }
     let s := with0 { ch0 [] [] with ash := [r], ashFrom := some 0 }
     (chOf s 0).ash = r :: [] ∧ (chOf s 0).ashFrom = some 0 ∧ r.seq = 0 ∧
     0 + 1000000 * max 1 (fld (creg s 0 0x900) 15 0) ≤ s.time.toNat) ∧
    (let t : Stream := { st := 2, length := 64, tmo := 1 }
     let s := with0 { ch0 [] [] with streams := [(0, t)] }
     streamAt (chOf s 0) 0 = t ∧ streamLive t = true ∧ arrivedBytes t < t.length ∧
     t.lastProgress.toNat + 1000000 * t.tmo.toNat ≤ s.time.toNat ∧
     ({ s with time := 5 }).time.toNat < t.lastProgress.toNat + 1000000 * t.tmo.toNat) := by decide +kernel

theorem witness_JobFatalFaultsHaltTheChamber :
    0 < 32 ∧ (chOf (in0 .running) 0).st = .running ∧ 0xB03 < 65536 ∧
    ∀ c : Chamber, (cset 0x904 1 c).st = c.st ∧ (cset 0x904 1 c).ops = c.ops :=
  ⟨by decide, by decide, by decide, fun _ => ⟨rfl, rfl⟩⟩

/-- A wrong window content of lane 0 on core 0, or no error at all. -/
def wrong (delta : Int) : CoreFault :=
  ⟨0, 0, 0, 0, 0, [⟨0, 0, 0, delta⟩], [], [], true, 5⟩

/-- The verdicts of an operation's compares. -/
def judged (o : Op) (s : State) (fs : List CoreFault) : Option (List CoreFail) :=
  match matCompute 0 o (linkedTo (chOf s 0) o) s with
  | (.ok (.ok ts), _) => some (sortFails (verdicts o ts fs))
  | _ => none

theorem witness_CheckMismatchesPoisonTheOperation :
    (let o := mulOp 0
     opOf (chOf (op1 o) 0) 0 = some o ∧ opType o = 1 ∧ entered o = true ∧ openCompares (chOf (op1 o) 0) o = true ∧
     (judged o (op1 o) [wrong 1]).map (fun l => l.map (fun f => (f.core, f.lane, f.cols))) = some [(0, true, [0])] ∧
     judged o (op1 o) [wrong 0] = some [] ∧
     entered (opIn .staged o.desc) = false ∧ openCompares (ch0 [] []) { o with begun := true } = false ∧
     unchecked { o with laneOff := true, colOff := true } = true) ∧
    (let o := mulOp 0
     let s := with0 { chamber .halted with stopped := [o], haltAt := 999000 }
     opOf (chOf s 0) 0 = none ∧ stoppedOp s 0 0 = some o ∧ o.begun = false ∧ (matCompute 0 o false s).1.toBool = true ∧
     stoppedOp (in0 .halted) 0 0 = none) ∧
    (let r : List ChkElt := [(3, 1), (0, 1)]
     ∀ q ∈ [r, r], ∀ g, g < 1 → ∀ i, i < 2 → (q.getD (g * 2 + i) (0, 0)).2 = groupScale q g 2) := by decide +kernel

/-! ## Witnesses: image, lantern, tests -/

theorem witness_ReloadAndProgramTheImage :
    (served rdy 0 ∧ reloadReady rdy = true ∧ rdy.prog = none ∧ (1#2).toNat ≠ fld (flowAt rdy 0) 1 0 ∧
      (0#2).toNat = fld (flowAt rdy 0) 1 0) ∧
    (served (in0 .running) 0 ∧ reloadReady (in0 .running) = false) ∧
    ({ rdy with prog := some (1, []) }).prog = some (1, []) := by unfold served; decide +kernel

/-- The Ready module with LNT_TIME and a lantern state. -/
def lantern (at_ : W32) (l : LntState) : State := { rdy with g := Tab.set 0 0x5008 at_ coldRegs, lnt := l, lntTime := 1000000 }

theorem witness_LanternSnapshotsLatchAtTheirTime :
    (served (lantern 2000000 .idle) 0 ∧ now (lantern 2000000 .idle) + 10000 ≤ gpair 0x5008 (lantern 2000000 .idle) ∧
      (lantern 2000000 .idle).lnt ≠ .latching ∧ (lantern 2000000 .idle).lnt ≠ .armed) ∧
    gpair 0x5008 (lantern 5 .idle) < now (lantern 5 .idle) + 10000 ∧
    ((lantern 5 .armed).lnt = .armed ∧ (lantern 5 .armed).lntTime.toNat ≤ now (lantern 5 .armed)) ∧
    (let r : Latching := { target := 1000000, snapId := 1, base := 0, left := [3] }
     let s := { lantern 5 .latching with latching := some r }
     s.lnt = .latching ∧ s.latching = some r ∧ 3 ∈ r.left ∧ 4 ∉ r.left ∧ bankStopped s 3 = true ∧
     now { s with time := 5 } < r.target.toNat) ∧
    now { lantern 5 .armed with time := 5 } < (lantern 5 .armed).lntTime.toNat := by unfold served; decide +kernel

/-- The Ready module with a cluster test that runs. -/
def testing : State := { rdy with g := Tab.set 0 0x2034 1 coldRegs }

theorem witness_TestsAndReportsEnd :
    (served rdy 0 ∧ (chOfCluster rdy (63#6).toNat).isNone = true ∧ cbistState rdy ≠ 1 ∧ (1#4) ≠ 0 ∧
      (chOfCluster (in0 .idle) (0#6).toNat).isSome = true ∧ 63 * 0x800000 / 0x800000 = (63#6).toNat) ∧
    (let t := fun (u : Bool) => { testing with cbistTests := 10, cbistUpdate := u }
     served testing 0 ∧ cbistState (t true) = 1 ∧ (t true).cbistUpdate = true ∧ (t false).cbistUpdate = false ∧
     5#4 &&& BitVec.ofNat 4 (t true).cbistTests = 0 ∧ (3#4 &&& BitVec.ofNat 4 (t true).cbistTests) ≠ 0 ∧
     (3#4 &&& BitVec.ofNat 4 (t true).cbistTests).getLsbD 3 = false ∧
     (9#4 &&& BitVec.ofNat 4 (t true).cbistTests).getLsbD 3 = true) ∧
    windowEnded (chOf (with0 { chamber .idle with ecc := ⟨some 0, 3⟩ }) 0).ecc rdy.time = true ∧
    windowEnded ({ rdy with nochEcc := ⟨some 0, 3⟩ }).nochEcc rdy.time = true ∧
    windowEnded ({ rdy with sramEcc := ⟨some 0, 3⟩ }).sramEcc rdy.time = true ∧
    (rdy.time.toNat < (5 : W64).toNat + 1000000 ∧ (0 : W64).toNat + 1000000 ≤ rdy.time.toNat ∧ rdy.sramEcc.last = none) ∧
    isFatal rdy = false ∧ 31 < 32 := by unfold served; decide +kernel

/-! ## Witnesses: the link -/

/-- The Ready module with a port. -/
def port0 (q : Port) : State := setPort 0 q rdy

/-- A flit of a kind and sequence number that passes its checks. -/
def goodFlit (kind : Nat) (seq : W8) : Bytes :=
  let body := BitVec.ofNat 8 kind :: 0 :: seq :: List.replicate 249 0
  body ++ natLe 4 (crc32c body).toNat

set_option maxRecDepth 100000 in
theorem witness_FlitsAreTakenInOrder :
    let s := port0 { st := .active }
    let q := fun (f : Bytes) => portOf (heedHeader 0 f (takeWords 0 [] s).2) 0
    (∀ k ∈ [0, 1, 2, 3], (goodFlit k 0).length = 256 ∧ crcOk (goodFlit k 0) = true ∧ at_ (goodFlit k 0) 0 1 % 4 = k) ∧
    ((portOf s 0).st = .active ∧ (takeWords 0 [] s).1 = false ∧
      at_ (goodFlit 1 0) 2 2 % 4096 = expected (q (goodFlit 1 0)) ∧ at_ (goodFlit 1 9) 2 2 % 4096 ≠ expected (q (goodFlit 1 9))) ∧
    ((portOf s 0).rxBit = 0 ∧ (portOf s 0).rxBad = false ∧ 15 < (16#10).toNat ∧ (15#10).toNat ≤ 15 ∧
      (takeWords 0 [⟨16, 20⟩] s).1 = true ∧ crcOk (List.replicate 256 1) = false) ∧
    (s.img.timePort ≠ 0 ∧ ({ s with img := { timePort := 0 } }).img.timePort = 0) ∧ (portOf rdy 0).st ≠ .active ∧
    ((portOf s 0).nextTime.toNat ≤ now s ∧ now s < (portOf (port0 { st := .active, nextTime := 2000000 }) 0).nextTime.toNat) ∧
    (let u := { rdy with img := { timePort := 0 }, time := 200000000 }
     isReference u = false ∧ u.mtb.silent = false ∧ u.mtb.lastMsg.toNat + 100000000 ≤ now u ∧
     ({ u with mtb := { silent := true } }).mtb.silent = true) ∧
    rdy.mtb.created = false ∧ rdy.mtb.backDone = false ∧ ({ rdy with mtb := { backDone := true } }).mtb.backDone = true ∧
    ({ rdy with mtb := { created := true } }).mtb.created = true ∧ (-10000 : Int) ≤ 60 ∧ (-20000 : Int) < -10000 := by
  decide +kernel

theorem witness_PortsTrainAndRecover :
    (∀ st ∈ [PortState.active, .recovery, .down, .disabled, .training], ∀ full ∈ [true, false],
      let s := port0 { st := st, full := full, enabled := true, failed := 1 }
      (portOf s 0).st = st ∧ (portOf s 0).full = full ∧ (portOf s 0).enabled = true ∧
      (portOf s 0).nextTime.toNat ≤ now s ∧ isFatal s = false ∧ served s 0 ∧
      (isTraining (portOf s 0) s = true ↔ st = .training ∨ st = .recovery)) ∧
    (let q := portOf (port0 { st := .active, bad := List.replicate 5 999999 }) 0
     q.bad.length = 5 ∧ (q.bad.headD 0).toNat ≤ (q.bad.getLastD 0).toNat + 1000) ∧
    (portOf (port0 { st := .active }) 0).bad.length ≠ 5 ∧
    (∃ f ∈ (portOf (port0 { st := .active, replay := [⟨0, 0, 0, [], 16⟩] }) 0).replay, 16 ≤ f.resends) ∧
    (portOf (port0 { st := .active }) 0).replay = [] ∧
    isFatal { port0 { st := .active } with g := [(0x2000, 1)] } = true ∧
    now rdy < (portOf (port0 { st := .down, nextTime := 2000000 }) 0).nextTime.toNat := by unfold served; decide +kernel

/-! ## Witnesses: remote memory -/

/-- A request to chamber 0 for its gallery at 0, under tag 5. -/
def asks (ptype : Nat) (body : Bytes) : Packet :=
  { ptype := ptype, hops := 0, dstMod := 0, dstCh := 0, srcMod := 1, srcCh := 0, body := body }

/-- The address field: OSPACE 1, offset 0. -/
def galAddr : Bytes := [0, 0, 0, 0, 0, 0, 1, 0]

/-- A body whose tag is 5 and function `f`, for packets with an address. -/
def tagged (f : W8) (rest : Bytes) : Bytes := galAddr ++ [5, 0, f * 16, 0] ++ rest

theorem witness_RemoteAccessesAreServedAndAnswered :
    let p1 := asks 1 (tagged 0 [])
    let p2 := asks 2 (tagged 0 (List.replicate 32 7))
    let p3 := asks 3 (tagged 0 (List.replicate 20 0))
    let p4 := asks 4 [5, 0, 0, 0, 3, 0, 0, 0, 9, 0, 0, 0]
    let p5 := asks 0x10 (galAddr ++ List.replicate 24 0 ++ List.replicate 256 0)
    (∀ p ∈ [p1, p2, p3, p4, p5], takeArrived p.ptype (got p (in0 .idle)) = some (p, in0 .idle) ∧ ready (in0 .idle) p = true ∧
      takeArrived p.ptype (got p (in0 .halted)) = some (p, in0 .halted) ∧ ready (in0 .halted) p = false ∧
      takeArrived p.ptype rdy = none ∧ answerRoom { got p (in0 .idle) with img := { moduleId := 1 } } p = true) ∧
    ((ownerLoad p1.dstCh (pktOspace p1) (pktAddr p1 % 2 ^ 48 / 256 * 256) 256 (in0 .idle)).1.toBool = true ∧
      (ownerLoad 0 0 0x200000 256 (paged (chamber .idle) [])).1.toBool = false) ∧
    ((ownerStore p2.dstCh (pktOspace p2) (pktAddr p2 % 2 ^ 48) (p2.body.drop 12) (in0 .idle)).1.toBool = true ∧
      (ownerStore 0 0 0x200000 (List.replicate 64 7) (paged (chamber .idle) [])).1.toBool = false) ∧
    (pktFunc p3 ≤ 5 ∧ pktAddr p3 % 2 ^ 48 % atomWidth (pktFunc p3) = 0 ∧ ¬ pktFunc (asks 3 (tagged 6 [])) ≤ 5 ∧
      (atomAt p3.dstCh (agent 6) (if pktOspace p3 = 1 then 1 else 2) (pktAddr p3 % 2 ^ 48) (pktFunc p3) (at_ p3.body 16 8)
        (at_ p3.body 24 8) (in0 .idle)).1.toBool = true ∧
      (atomAt 0 (agent 6) 2 0x200000 0 0 0 (paged (chamber .idle) [])).1.toBool = false) ∧
    (at_ p4.body 4 2 ≤ 4095 ∧ 4095 < at_ (asks 4 [5, 0, 0, 0, 0, 0x10]).body 4 2) ∧
    (redEpoch p5 = fld (creg (in0 .idle) 0 0x808) 15 0 ∧ pktOspace p5 = 1 ∧
      pktAddr p5 % 2 ^ 48 / 256 * 256 + 256 ≤ winSize (in0 .idle) (chOf (in0 .idle) 0) ∧
      (maskedLoad p5.dstCh 1 (pktAddr p5 % 2 ^ 48 / 256 * 256) (maskedWords 32 (redMask p5)) (in0 .idle)).1.toBool = true) ∧
    (allWritable 0 0 256 (paged (chamber .idle) [])).1.toBool = true ∧
    redEpoch p5 ≠ fld (creg (with0 { chamber .idle with regs := [(0x808, 1)] }) 0 0x808) 15 0 := by decide +kernel

/-- The Ready module with as many answers in a lane-1 queue. -/
def crowded (k : Nat) : State := port0 { queues := [(1, List.replicate k { input := 0, since := 0, len := 0, pieces := [] })] }

theorem crowded_waits (k : Nat) : responsesWaiting (crowded k) 0 = k := by
  have h0 : Tab.get [] 1 (portOf (crowded k) 0).queues = List.replicate k { input := 0, since := 0, len := 0, pieces := [] } := rfl
  have h1 : ∀ p, Tab.get [] 1 (portOf (crowded k) (p + 1)).queues = [] := fun _ => rfl
  unfold responsesWaiting
  rw [show List.range 24 = 0 :: (List.range 23).map (· + 1) from rfl, List.map_cons, List.sum_cons, List.map_map, h0]
  have h2 : (List.map ((fun p => ((Tab.get [] 1 (portOf (crowded k) p).queues).filter (fun k =>
      decide (k.input < 64 ∧ k.input % 2 = 0))).length) ∘ (· + 1)) (List.range 23)) = List.replicate 23 0 := by
    simp only [Function.comp_def, h1, List.filter_nil, List.length_nil]
    rfl
  rw [h2]
  simp

theorem witness_NoRoomForAnAnswer :
    answerRoom (crowded (Config.responseRoom + 1)) (asks 1 (tagged 0 [])) = false := by
  have a : bit (routeOf (crowded (Config.responseRoom + 1)) 1) 24 = false := rfl
  have b : (crowded (Config.responseRoom + 1)).img.moduleId = 0 := rfl
  simp [answerRoom, asks, crowded_waits, a, b]

theorem witness_RemoteAnswersAreTaken :
    let r : Req := { tag := 5, kind := .store, addr := 0, deadline := 2000000, seq := 0, pkt := asks 2 [] }
    let s := with0 { chamber .running with reqs := [r] }
    let ans := fun (t st : Nat) => asks t ([5, 0, BitVec.ofNat 8 (st * 16), 0] ++ List.replicate 12 0)
    (∀ t ∈ [8, 9], ∀ st ∈ [0, 3],
      let p := ans t st
      takeArrived t (got p s) = some (p, s) ∧ (chOf s 0).oldTags.contains (pktTag p) = false ∧
      reqOf (chOf s 0) (pktTag p) = some r ∧ pktStatus p = st) ∧
    (r.late = false ∧ ({ r with late := true }).late = true) ∧
    (chOf (with0 { chamber .running with oldTags := [5] }) 0).oldTags.contains 5 = true ∧
    (r.sent = true ∧ now s < r.deadline.toNat ∧ r.deadline.toNat ≤ now { s with time := 2000000 }) ∧
    opOf (chOf s 0) r.seq = none ∧ (opOf (ch0 [] [opIn .executing (descOf 9 [])]) r.seq).map opType = some 9 := by decide +kernel

/-! ## Witnesses: power, damper, housekeeping -/

/-- The Ready module as module 0 with a coordinator. -/
def ruled (m : Nat) : State := { rdy with img := { coord := some m } }

/-- A GRANT of 900 W with sequence number 1 from module 1. -/
def grant (t : Nat) : Packet :=
  asks 0x19 ([1, 0, 0, 0, 0x84, 3, 0, 0, BitVec.ofNat 8 t, 0, 0, BitVec.ofNat 8 t] ++ List.replicate 12 0)

theorem witness_GrantsMoveTheCap :
    (∀ a ∈ [0, 9],
      takeArrived 0x19 (got (grant a) (ruled 1)) = some (grant a, ruled 1) ∧ (ruled 1).img.coord = some (grant a).srcMod ∧
      1 ≤ (BitVec.ofNat 32 (at_ (grant a).body 0 4) - gget 0x1014 (ruled 1)).toNat ∧
      (BitVec.ofNat 32 (at_ (grant a).body 0 4) - gget 0x1014 (ruled 1)).toNat < 2 ^ 31) ∧
    (at_ (grant 0).body 8 8 ≤ now (ruled 1) ∧ now (ruled 1) < at_ (grant 9).body 8 8) ∧ (ruled 2).img.coord ≠ some (grant 0).srcMod ∧
    (BitVec.ofNat 32 (at_ (grant 0).body 0 4) - gget 0x1014 { ruled 1 with g := [(0x1014, 1)] }).toNat = 0 := by
  decide +kernel

theorem witness_GrantsAndReports :
    (∀ t ∈ [1000000, 1000001],
      ({ rdy with power := { rdy.power with pending := some (900, BitVec.ofNat 64 t) } }).power.pending =
        some (900, BitVec.ofNat 64 t)) ∧
    (served (ruled 1) 0 ∧ (ruled 1).img.coord.isSome = true ∧ served rdy 0 ∧ rdy.img.coord = none) ∧
    (takeArrived 0x18 (got (asks 0x18 []) (ruled 0)) = some (asks 0x18 [], ruled 0) ∧ isCoord (ruled 0) = true ∧
      takeArrived 0x18 (got (asks 0x18 []) (ruled 1)) = some (asks 0x18 [], ruled 1) ∧ isCoord (ruled 1) = false) ∧
    (isReady (ruled 1) = true ∧ (ruled 1).coord.lastSlack.toNat / 100000 < now (ruled 1) / 100000 ∧ 1 ≠ (ruled 1).img.moduleId ∧
      now rdy / 100000 ≤ ({ rdy with coord := { lastSlack := 1000000 } }).coord.lastSlack.toNat / 100000) ∧
    (isReady (ruled 0) = true ∧ (ruled 0).coord.nextPeriod.toNat ≤ now (ruled 0) ∧
      fld (gget 0x3018 (ruled 0)) 15 0 = 0 ∧ fld (gget 0x3018 { ruled 0 with g := [(0x3018, 2000)] }) 15 0 ≠ 0) := by
  unfold served; decide +kernel

/-- The module in a power phase. -/
def inPhase (p : Phase) (t : Target) : State :=
  { rdy with power := { phase := p, target := t, input := true, holdUntil := 1000000 } }

theorem witness_PowerRequestsStartSequences :
    (rdy.power.phase = .ready ∧ served rdy 0) ∧
    (let s := inPhase (.pd 1) .standby
     isReady s = false ∧ served s 0 ∧ s.power.phase = .pd 1) ∧
    (let s := inPhase .standby .standby
     s.power.phase = .standby ∧ s.power.holdoff = false ∧ s.firmware.booted ≠ 0) ∧
    (let s := { rdy with power := { phase := .standby, holdoff := true } }
     s.power.phase = .standby ∧ s.power.holdoff = true ∧ s.power.refusedOn ≠ 255 ∧ s.firmware.booted ≠ 0) ∧
    State.reset.firmware.booted = 0 ∧
    ((inPhase .off .off).power.phase = .off ∧ (inPhase .off .off).power.input = true) := by unfold served; decide +kernel

theorem witness_PowerSequencesFollowTheirPhases :
    (∀ k ∈ [1, 2, 3, 4, 5, 6], ∀ t ∈ [Target.on, .standby],
      (inPhase (.pu k) t).power.latched = none ∧ (inPhase (.pu k) t).power.target = t ∧
      (inPhase (.pu k) t).power.phase = .pu k ∧ (inPhase (.pd k) t).power.phase = .pd k ∧
      (inPhase (.pd k) t).power.target = t) ∧
    (∀ p, p < 24 → isTraining (portOf (inPhase (.pu 4) .on) p) (inPhase (.pu 4) .on) = false) ∧
    (inPhase (.pu 4) .on).power.keepHalted = false ∧
    ({ inPhase (.pu 4) .on with power := { (inPhase (.pu 4) .on).power with keepHalted := true } }).power.keepHalted = true ∧
    flowDone (inPhase (.pd 1) .standby) = true ∧ rdy.power.phase ≠ .pu 1 ∧ rdy.power.phase ≠ .pd 4 := by
  refine ⟨by decide +kernel, fun p _ => ?_, by decide +kernel, rfl, by decide +kernel, by decide, by decide⟩
  rfl

theorem witness_TripsAndStartUp :
    (inPhase .toOff .off).power.phase = .toOff ∧ rdy.power.phase = .ready ∧
    ((inPhase .offDwell .off).power.phase = .offDwell ∧ (inPhase .offDwell .off).power.latched = none ∧
      (let s := { rdy with power := { phase := .offDwell, latched := some .on } }
       s.power.phase = .offDwell ∧ s.power.latched = some .on)) ∧
    (State.reset.power.phase = .off ∧ State.reset.power.input = false) ∧
    (let s := { rdy with power := { rdy.power with railOver := [(railKey (0 : Fin 2) .vddB, some 900000)] } }
     Tab.get none (railKey (0 : Fin 2) .vddB) s.power.railOver = some 900000 ∧ tripDue s (.rail 0 .vddB) = true ∧
     tripDue s (.rail 1 .vddB) = false ∧ tripDue rdy .excess = true) ∧
    (let s := inPhase .startUp .standby
     s.power.phase = .startUp ∧ s.power.target = .standby ∧ s.power.latched = none ∧ s.power.en = false) ∧
    (let s := { rdy with power := { phase := .standby, holdoff := true, holdUntil := 1000000 } }
     s.power.phase = .standby ∧ s.power.holdoff = true ∧ s.power.holdUntil.toNat ≤ now s ∧
     now { s with time := 5 } < s.power.holdUntil.toNat) := by decide +kernel

theorem witness_DamperTermsFollowTheirRules :
    (islandsOn rdy = true ∧ islandsOn State.reset = false ∧ islandRuns rdy 0 = true ∧ islandRuns State.reset 0 = false ∧
      8 * (1000 * ilim rdy 0) < 8 * 700001 ∧ ¬ 8 * (1000 * ilim rdy 0) < 8 * 700000 ∧ ¬ 20 * (8 * 700000) < 19 * (8 * (1000 * ilim rdy 0)) ∧
      20 * (8 * 664999) < 19 * (8 * (1000 * ilim rdy 0))) ∧
    (isReady (in0 .running) = true ∧ ∃ a ∈ allShares (in0 .running), 0 ∈ a.clusters ∧
      (allShares (in0 .running)).filter (fun b => b.clusters.contains 0) = [a]) ∧
    (∀ a ∈ allShares (in0 .running), 5 ∉ a.clusters) ∧ (1 ≤ 64 ∧ 64 ≤ 64) ∧
    (clusterOf { rdy with clusters := [(0, { change := .running })] } 0).change = .running ∧
    (clusterOf rdy 0).change ≠ .running ∧ isReady rdy = true ∧
    (let c := clusterOf { rdy with clusters := [(0, { change := .deferred (some 1000000) })] } 0
     c.change = .deferred (some 1000000) ∧ c.droop = false ∧ (1000000#64).toNat ≤ now rdy ∧
     now { rdy with time := 5 } < (1000000#64).toNat) ∧
    (clusterOf { rdy with clusters := [(0, { droop := true })] } 0).droop = true := by decide +kernel

theorem witness_EnergyAndHousekeeping :
    (reaches (in0 .idle) 0 0 ∧ (9 : W32) ≠ creg (in0 .idle) 0 0x10 ∧ (0 : W32) = creg (in0 .idle) 0 0x10) ∧
    (isReady rdy = true ∧ (223#8).toNat < 224) ∧
    (served rdy 0 ∧ fld 223 7 0 < 224 ∧ (hkOf rdy (fld 223 7 0)).pending = false ∧ 224 ≤ fld 224 7 0) ∧
    (let temps := List.range 128
     let d := fun (s : State) =>
       let a := forAll temps (fun n t => standIn t n) (forAll temps (judgeSensor s) s)
       let b := forAll [0, 1] thermalRound (forAll [0, 1] bandRound a)
       forAll temps heatRound { b with hkRound := b.hkRound + 1 }
     temps.any (fun n => decide (2 ≤ (hkOf (d rdy) n).hot)) = false ∧
     temps.any (fun n => decide (2 ≤ (hkOf (d { rdy with hk := [(0, { value := 0x7FFF, valid := true, hot := 1 })] }) n).hot)) =
       true) ∧ isReady State.reset = false ∧
    ([1, 2].sum = 3 ∧ 0 < 3) ∧
    (defined (in0 .idle) 0 = true ∧ isRunning (in0 .idle) 0 = false ∧ defined (in0 .idle) 1 = false) := by
  unfold reaches served; decide +kernel

/-! ## Witnesses: the host -/

theorem witness_HostResetsAndRequests :
    (isReady rdy = true ∧ rdy.pcie.warm = false ∧ rdy.pcie.speed ≠ 0 ∧ served rdy 0 ∧ endpointUp rdy = true ∧
      rdy.pcie.perst = false ∧ fnExists rdy 1 = false ∧ fnExists rdy 0 = true) ∧
    (let s := { rdy with pcie := { rdy.pcie with warm := true } }
     s.pcie.warm = true ∧ noneClearing s = true ∧ s.pcie.speed ≠ 0) ∧
    (5 ≤ (5#3).toNat ∧ 16 ≤ (16#5).toNat ∧ (8#5).toNat < 16) ∧
    (let s := { in0 .running with pcie := { rdy.pcie with vfEnable := true, vfCount := 2 } }
     (2 : Fn).val = (1 : Fin 32).val + 1 ∧ fnExists s 2 = true ∧ fnCh s 2 = none ∧ fnExists s 1 = true ∧ fnCh s 1 = some 0 ∧
     (chOf s 0).st = .running ∧ isReady s = true ∧ s.pcie.warm = false ∧ s.pcie.speed ≠ 0) ∧
    (let r : HostRead := { tag := 3, fn := 0, ch := 0, seq := 0, stream := 0, addr := 0, len := 64, issued := 0 }
     let s := { in0 .running with hostReads := [r] }
     s.hostReads.find? (fun q => q.tag == 3) = some r ∧ (streamAt (chOf s r.ch) r.stream).seq = r.seq ∧
     now s < r.issued.toNat + dmaTimeout s ∧ r.issued.toNat + dmaTimeout s ≤ now { s with time := 60000000 }) ∧
    (let s := { rdy with pcie := { rdy.pcie with lastMsg := [(0, some 1000000)], due := [(0, true)] } }
     Tab.get none (vecKey 0 0) s.pcie.lastMsg = some 1000000 ∧ Tab.get false (vecKey 0 0) s.pcie.due = true ∧
     (1000000#64).toNat + 1000 * fld (ringGet s (vectorRing s 0 0) 0x20) 15 0 ≤ now s ∧
     now { s with time := 5 } < (1000000#64).toNat + 1000 * fld (ringGet s (vectorRing s 0 0) 0x20) 15 0) := by
  unfold served; decide +kernel

theorem witness_WindowAndHeldWrites :
    let m : Merge := { unit := 0, bytes := List.replicate 64 none, first := 990000 }
    (fnUp { rdy with merge := [m] } 0 = true ∧ openUnits { rdy with merge := [m] } ≠ [] ∧ isBuffer 0xC00 = false ∧
      rdy.bar2Wait = [] ∧ rdy.heldWrites = []) ∧
    (let h : HeldWrite := { fn := 0, off := 0xC00, v := 5, units := [] }
     ({ rdy with heldWrites := [h] }).heldWrites.find? (fun h => h.fn == 0) = some h ∧ h.units = [] ∧
     ({ h with units := [0] }).units ≠ []) ∧
    (let s := in0 .idle
     hostUp s = true ∧ hostFrozen s = false ∧ 0 + 64 ≤ 2 ^ s.pcie.bar2Log ∧ (List.replicate 64 (7 : W8)).length = 64 ∧
     windowAddr s 0 % 64 = 0 ∧ s.merge = [] ∧ windowAddr s 0 < bulkSize ∧ bulkOwner s (windowAddr s 0) = some 0 ∧
     unitStalled s (windowAddr s 0) = false ∧ mapped s (windowAddr s 0 / 64 * 64) = true ∧
     barStalled s (windowAddr s 0) 1 = false ∧ mapped s (2 ^ 30) = false ∧ Tab.get 0 (0 / 64) s.bulkErr = 0) ∧
    (let s := { rdy with merge := [m] }
     s.merge.find? (fun m => m.unit == (0#33).toNat) = some m ∧ unitFull m = false ∧ m.first.toNat + 10000 ≤ now s ∧
     now { s with time := 990001 } < m.first.toNat + 10000) ∧
    (let s := with0 { chamber .rotating with oldKey := 2 }
     hostUp s = true ∧ hostFrozen s = false ∧ barStalled s (windowAddr s 0) 64 = true) ∧
    hostUp State.reset = false ∧ hostFrozen { rdy with g := [(0x2000, 1)] } = true ∧
    2 ^ rdy.pcie.bar2Log < (0x3FFFFFFFF#36).toNat + (2#13).toNat := by decide +kernel

theorem meets_of_mem {r : AluRow} (h : r ∈ integerRows ++ floatRows ++ otherRows) :
    ∃ s loc g path w u, issues s loc g path w u ∧ iOpc w % 0x80 = r.opc ∧ r.ok w = true ∧
      codesLegal u g path (r.srcs w) (r.dsts w) :=
  ⟨_, _, _, _, _, _, rowB_meets (List.all_eq_true.mp all_rowB r h)⟩

theorem witness_RegisterInstructionsComputeTheirRows : ∀ r ∈ integerRows ++ floatRows,
    ∃ s loc g path w u, issues s loc g path w u ∧ iOpc w % 0x80 = r.opc ∧ r.ok w = true ∧
      codesLegal u g path (r.srcs w) (r.dsts w) :=
  fun _ h => meets_of_mem (List.mem_append_left _ h)

/-- QBLK to TYPE 4. -/
def quantWord : W64 := word 0x31 3 0 0 0 4 0

theorem witness_ConversionsAndFunctionsComputeTheirRows :
    (∀ r ∈ otherRows, ∃ s loc g path w u, issues s loc g path w u ∧ iOpc w % 0x80 = r.opc ∧ r.ok w = true ∧
      codesLegal u g path (r.srcs w) (r.dsts w)) ∧
    issues (threads (group {}) quantWord) here (group {}) [0] quantWord (fetched (group {}) quantWord) ∧
    (iOpc quantWord = 0x31 ∧ 4 ≤ iTy quantWord ∧ iTy quantWord ≤ 7 ∧ eltOf (iTy quantWord - 3) = some ⟨4, 2, 1, 1, 2⟩ ∧
     iMod quantWord < 128 ∧ codesB 1 (group {}) quantWord [iA quantWord] [iD quantWord] = true ∧ iD quantWord < 48 ∧
     iA quantWord ≠ 57) ∧
    cmpX (x32 0xBF800000) (.fin false 0 0) = some (-1) :=
  ⟨fun _ h => meets_of_mem (List.mem_append_right _ h),
   issuesB_issues (by decide +kernel), by decide +kernel, by decide +kernel⟩

/-- A control instruction with an immediate. -/
def wordI (opc d a : Nat) (imm : Nat) : W64 := BitVec.ofNat 64 (opc + d * 2 ^ 8 + a * 2 ^ 14 + imm * 2 ^ 32)

theorem witness_ControlInstructionsMoveTheirThreads :
    (∀ c ∈ [0x50, 0x51, 0x52, 0x53, 0x54], issuesB {} (wordI c 0 2 1) = true ∧ iOpc (wordI c 0 2 1) = c ∧
      codesB 1 (group {}) (wordI c 0 2 1) [iA (wordI c 0 2 1)] [] = true ∧
      codesB 1 (group {}) (wordI c 0 2 1) [iA (wordI c 0 2 1), nextCode (iA (wordI c 0 2 1))] [] = true ∧
      (∀ i ∈ [0], (threadAt (group {}) i).res ≠ (chOf (fetched (group {}) (wordI c 0 2 1)) 0).winDepth)) ∧
    (let t : Thread := { depth := 1, res := 2, win := 1 }
     issuesB t (wordI 0x55 0 0 0) = true ∧ iOpc (wordI 0x55 0 0 0) = 0x55 ∧
     codesB 1 (group t) (wordI 0x55 0 0 0) [22, 23] [] = true ∧ ∀ i ∈ [0], (threadAt (group t) i).depth ≠ 0 ∧ (threadAt (group t) i).res ≠ 1) ∧
    (let t : Thread := { trap := true }
     issuesB t (wordI 0x56 0 0 0) = true ∧ iOpc (wordI 0x56 0 0 0) = 0x56 ∧
     codesB 1 (group t) (wordI 0x56 0 0 0) [40, 41] [] = true ∧ ∀ i ∈ [0], (threadAt (group t) i).trap = true) ∧
    (issuesB {} (wordI 0x58 0 0 1000000) = true ∧ iOpc (wordI 0x58 0 0 1000000) = 0x58 ∧
     (iImm (wordI 0x58 0 0 1000000)).toNat ≤ 1000000) := by decide +kernel

theorem witness_WindowsCountersAndEndsOfThreads :
    (issuesB {} (wordI 0x57 0 0 0) = true ∧ iOpc (wordI 0x57 0 0 0) = 0x57) ∧
    (issuesB {} (wordI 0x55 0 0 0) = true ∧ iOpc (wordI 0x55 0 0 0) = 0x55 ∧ (threadAt (group {}) ([0].headD 0)).depth = 0) ∧
    (∀ c ∈ [0x47, 0x48], issuesB { trap := true } (word c 0 0 0 0 0 0) = true ∧ iOpc (word c 0 0 0 0 0 0) = c ∧
      ∀ i ∈ [0], (threadAt (group { trap := true }) i).trap = true) ∧
    (∀ k ∈ [0, 4095], let w := wordI 0x60 0 3 k
      issuesB {} w = true ∧ iOpc w = 0x60 ∧ (iImm w).toNat % 65536 ≤ 4095 ∧ codesB 1 (group {}) w [iA w] [] = true) ∧
    (let x : Iss := ⟨here, group {}, [0], 0⟩
     let s := fetched (group {}) (wordI 0x50 0 0 0)
     ({ res := 2 } : Thread).trap = false ∧ trapAddr x s ≠ 0 ∧ ({ res := 2 } : Thread).res = x.depth s ∧ ({} : Thread).res = 1) ∧
    (∀ p ∈ [(0, 0), (6, 6), (0, 960)], let x : Iss := ⟨here, group {}, [0], 0⟩
      let t : Thread := { oldest := p.1, regs := [(127, BitVec.ofNat 32 (0x200000 + p.2))] }
      (6 : Nat) ≤ 6 ∧ t.oldest ≤ 6 ∧ windowBad t [t.oldest] = false ∧ (p.2 % 64 = 0 → spillBase x.g 0 ≤ regT7 t ∧ regT7 t + 64 ≤ spillBase x.g 0 + x.g.spill ∧
        regT7 t + 64 < 2 ^ 32)) ∧
    (∀ k ∈ [1000000, 1000001], let t : Thread := { wait := .sleep (BitVec.ofNat 64 k) }
      let s := threads (group t) 0
      groupAt s 0 0 = some (group t) ∧ (threadAt (group t) 0).wait = .sleep (BitVec.ofNat 64 k) ∧
      (k = 1000000 → (BitVec.ofNat 64 k).toNat ≤ now s) ∧ (k = 1000001 → now s < (BitVec.ofNat 64 k).toNat)) := by
  decide +kernel

/-- A memory instruction: SIZE or FUNC, SPACE, D, A, B. -/
def wordM (opc d a b ty space : Nat) : W64 := word opc d a b 0 ty space

/-- A thread whose pair at 2 holds an address. -/
def atPair (a : Nat) : Thread := { regs := Tab.set 0 2 (lo32 a) (Tab.set 0 3 (hi32 a) []) }

/-- The issue of an instruction by the first `n` threads of a group. -/
def issOf (n : Nat) (g : Group) (w : W64) : Iss := ⟨here, g, List.range n, w⟩

/-- What an access of `len` bytes needs to be performed. -/
def clearN (n : Nat) (g : Group) (w : W64) (len : Nat) (rd wr : Bool) (srcs dsts : List Nat) : Bool :=
  issuesN n g w && addrOk w && codesB n g w (addrCodes w ++ srcs) dsts &&
  (List.range n).all (fun i =>
    (accessCheck (issOf n g w) (issued (fetched g w) here g (List.range n) w) len rd wr i).isNone)

theorem clearN_clear {n : Nat} {g : Group} {w : W64} {len : Nat} {rd wr : Bool} {srcs dsts : List Nat}
    (h : clearN n g w len rd wr srcs dsts = true) :
    issues (threads g w) here g (List.range n) w (fetched g w) ∧ addrOk w = true ∧
      codesLegal (fetched g w) g (List.range n) (addrCodes w ++ srcs) dsts ∧
      ∀ i ∈ List.range n,
        accessCheck (issOf n g w) (issued (fetched g w) here g (List.range n) w) len rd wr i = none := by
  simp only [clearN, Bool.and_eq_true, Option.isNone_iff_eq_none, List.all_eq_true] at h
  obtain ⟨⟨⟨h1, h2⟩, h3⟩, h4⟩ := h
  exact ⟨issuesN_issues h1, h2, codesB_legal h3, h4⟩

/-- A core-space address of the spill region, or an address 0 of another space. -/
def addrIn (space : Nat) : Nat := if space = 0 then 0x200000 else 0

/-- A thread whose pair at 2 holds an address of a space. -/
def reach (space : Nat) : Group := group (atPair (addrIn space))

theorem loads_clear : ∀ p ∈ [(0, 0), (1, 0), (2, 0), (3, 0), (0, 1), (3, 2)],
    clearN 1 (reach p.2) (wordM 0x40 4 2 0 p.1 p.2) (2 ^ p.1) true false [] (if p.1 = 3 then [4, 5] else [4]) = true := by
  decide +kernel

theorem stores_clear : ∀ k ∈ [0, 1, 2, 3],
    clearN 1 (reach 0) (wordM 0x41 4 2 0 k 0) (2 ^ k) false true (if k = 3 then [4, 5] else [4]) [] = true := by
  decide +kernel

/-- Four threads whose pairs at 2 hold 0, 8, 16 and 24: together one code word of the gallery. -/
def quad : Group := crew [atPair 0, atPair 8, atPair 16, atPair 24]

/-- ST of a pair to the gallery. -/
def quadWord : W64 := wordM 0x41 4 2 0 3 1

theorem quad_clear : clearN 4 quad quadWord 8 false true [4, 5] [] = true ∧
    (let x := issOf 4 quad quadWord
     let z := latchPath x (addrCodes quadWord ++ [4, 5]) (issued (fetched quad quadWord) here quad (List.range 4) quadWord)
     partFault x z (gathered x z 8) = none) := by decide +kernel

theorem atomics_clear : ∀ p ∈ [(0, [0]), (1, [0]), (2, [0]), (3, [0]), (4, [0, 4]), (5, [0, 1, 4, 5])], ∀ space ∈ [0, 2, 3],
    clearN 1 (reach space) (wordM 0x43 4 2 0 p.1 space) (atomWidth p.1) true true p.2
      (if p.1 = 5 then [4, 5] else [4]) = true := by decide +kernel

theorem reductions_clear : ∀ f ∈ [0, 1, 2, 3], ∀ space ∈ [0, 2, 3],
    clearN 1 (reach space) (wordM 0x44 4 2 0 f space) 4 true true [0] [] = true := by decide +kernel

theorem contribution_clear : clearN 1 (reach 3) (wordM 0x44 4 2 0 6 3) 2 true true [4] [] = true := by decide +kernel

/-- The fields that the statements on memory instructions read. -/
theorem memory_fields : ∀ c ∈ [0x40, 0x41, 0x42, 0x43, 0x44], ∀ ty ∈ [0, 3, 5, 6], ∀ space ∈ [0, 1, 2, 3],
    let w := wordM c 4 2 0 ty space
    iOpc w = c ∧ iTy w = ty ∧ iSpace w = space ∧ iD w = 4 ∧ iB w = 0 ∧ iA w = 2 := by decide +kernel

/-- A thread with a core-space address in register 4 and an address in the pair at 2. -/
def copier : Thread := { regs := [(4, 0x200000)] }

/-- A CPY between core space and bulk memory, and one with the gallery. -/
def copyWords : List (W64 × Nat) := [(wordM 0x42 4 2 0 4 1, 32), (wordM 0x42 4 2 0 5 2, 64)]

theorem copies_clear : ∀ p ∈ copyWords, clearN 1 (group copier) p.1 p.2 false true [4] [] = true := by decide +kernel

theorem copies_checked : ∀ p ∈ copyWords, ∀ i ∈ [0],
    cpyCheck (issOf 1 (group copier) p.1) (issued (fetched (group copier) p.1) here (group copier) [0] p.1) i = none := by
  intro p hp i hi
  have h : ∀ q ∈ copyWords, ∀ j ∈ [0], ∀ b : Bool,
      (let x := issOf 1 (group copier) q.1
       let s := issued (fetched (group copier) q.1) here (group copier) [0] q.1
       let a := cpyCore x s j
       a % cpyLen q.1 = 0 ∧ coreFault x s a (cpyLen q.1) b j = none ∧ parityFault x s a (cpyLen q.1) false j = none) := by
    decide +kernel
  have k := h p hp i hi (Config.cpyToCore p.1)
  simp only at k
  obtain ⟨k1, k2, k3⟩ := k
  simp only [cpyCheck, show (issOf 1 (group copier) p.1).w = p.1 from rfl, k1, k2, k3, ne_eq, not_true_eq_false, if_false, ite_self]

theorem latch_nothing : ∀ p ∈ copyWords, ∀ s, latchPath (issOf 1 (group copier) p.1) (addrCodes p.1 ++ [4]) s = s := by
  intro p hp s
  have h : ∀ q ∈ copyWords, (addrCodes q.1 ++ [4]).contains 57 = false := by decide +kernel
  simp only [latchPath, h p hp, Bool.false_eq_true, if_false]

theorem witness_MemoryInstructionsMakeTheirAccesses :
    (∀ c ∈ [0x45, 0x46], issuesB {} (word c 0 0 0 0 0 0) = true ∧ iOpc (word c 0 0 0 0 0 0) = c) ∧
    (clearN 1 (reach 0) (wordM 0x40 4 2 0 3 0) 8 true false [] [4, 5] = true ∧
     clearN 1 (reach 0) (wordM 0x41 4 2 0 3 0) 8 false true [4, 5] [] = true ∧
     clearN 4 quad quadWord 8 false true [4, 5] [] = true ∧ clearN 1 (group copier) (wordM 0x42 4 2 0 5 2) 64 false true [4] [] = true) ∧
    (let s := threads (group {}) 0
     groupAt s 0 0 = some (group {}) ∧ 0 < (group {}).threads.length ∧ iSpace 0 = 0 ∧
     (∀ len ∈ [1, 2, 4, 8], (corePlace s here (group {}) 0x200000 len).isSome = true)) ∧
    (let t : Thread := { wait := .mem 39 true (some 5) }
     groupAt (threads (group t) 0) 0 0 = some (group t) ∧ (threadAt (group t) 0).wait = .mem 39 true (some 5) ∧ 39 < 40) := by
  decide +kernel

theorem witness_AtomicsReadThenWrite :
    (∀ space ∈ [0, 2, 3], clearN 1 (reach space) (wordM 0x43 4 2 0 5 space) 8 true true [0, 1, 4, 5] [4, 5] = true) ∧
    clearN 1 (reach 0) (wordM 0x44 4 2 0 0 0) 4 true true [0] [] = true ∧
    clearN 1 (reach 3) (wordM 0x44 4 2 0 6 3) 2 true true [4] [] = true ∧ 5 ≤ 5 := by decide +kernel

end Sys2Proof.Tests
end

