-- ==== Sys2Proof/Proofs/RegisterAccess.lean ====
section
/-! PROOFS. RegisterAccess.lean: one 32-bit access of a function's BAR0, read or write: what it comes down to on the
word that it touches (R6, R407). -/
namespace Sys2Proof.Proofs
open Sys2Proof Sys2Proof.Machine Sys2Proof.Safety

/-! ## The commands -/

theorem exec_counterLowRead (fn : Fn) (off : BitVec 26) (len : BitVec 13) (s : State) :
    exec (.counterLowRead fn off len) s = .next (bar0Read fn off.toNat len.toNat s) := rfl

theorem exec_registerWrite (fn : Fn) (off : BitVec 26) (data : List (Option W8)) (s : State) :
    exec (.registerWrite fn off data) s = .next (bar0Write fn off.toNat data s) := rfl

theorem exec_rwaWrite (fn : Fn) (off : BitVec 26) (v : W32) (s : State) :
    exec (.rwaWrite fn off v) s = .next (bar0Write fn off.toNat (allBytes v) s) := rfl

/-! ## Places -/

/-- Only the PF reaches the words outside the chamber blocks. -/
theorem placeOf_eq_global {s : State} {fn : Fn} {off j : Nat} (h : placeOf s fn off = .global j) : fn = 0 ∧ j = off := by
  unfold placeOf at h
  by_cases h0 : fn = 0
  · rw [if_pos h0] at h
    split at h
    · cases h
    · exact ⟨h0, (Place.global.inj h).symm⟩
  · rw [if_neg h0] at h
    split at h <;> cases h

/-- A VF reaches the block of its own chamber only (R13). -/
theorem fnCh_of_placeOf_chm {s : State} {fn : Fn} {off n j : Nat} (h0 : fn ≠ 0) (h : placeOf s fn off = .chm n j) :
    fnCh s fn = some n ∧ j = off := by
  unfold placeOf at h
  rw [if_neg h0] at h
  split at h
  next m hm =>
    cases h
    exact ⟨hm, rfl⟩
  next => cases h

/-- The words of a chamber's block are aligned as those of the BAR. -/
theorem placeOf_chm_aligned {s : State} {fn : Fn} {off n j : Nat} (h : placeOf s fn off = .chm n j) (ha : off % 4 = 0) :
    j % 4 = 0 := by
  by_cases h0 : fn = 0
  · subst h0
    unfold placeOf at h
    rw [if_pos rfl] at h
    split at h
    · obtain ⟨-, rfl⟩ := Place.chm.inj h
      omega
    · cases h
  · rwa [(fnCh_of_placeOf_chm h0 h).2]

theorem wordExists_chm_undefined {s : State} {n : Nat} (h : defined s n = false) (j : Nat) :
    wordExists s (.chm n j) = false := by simp [wordExists, h]

/-- An access changes nothing but the counts of accesses (Table OBS-2). -/
theorem countAccess_frame (s : State) (p : Place) : { countAccess s p with banks := s.banks } = s := by
  cases s
  rfl

/-! ## Reads (R6) -/

section Read
variable {s : State} {fn : Fn} {off : Nat}

/-- A read of one word answers the bytes of that word. -/
theorem bar0Read_word (hu : fnUp s fn = true) (ha : off % 4 = 0) (hb : off + 4 ≤ barSize fn) :
    bar0Read fn off 4 s = emit (.cpl fn (natLe 4 (readWord fn off s).1.toNat) false) (readWord fn off s).2 := by
  have hs : slice (natLe 4 (readWord fn off s).1.toNat) 0 4 = natLe 4 (readWord fn off s).1.toNat := by
    simpa using slice_all (natLe 4 (readWord fn off s).1.toNat)
  unfold bar0Read
  rw [if_neg (by simp [hu, hb]), granules_word off ha, ha]
  simp only [readWords, List.append_nil, hs]

/-- The low word of a counter pair: the live value, and a holding copy of the high word. -/
theorem readWord_pairLow (hn : noBlock s (placeOf s fn off) = false) (hl : isPairLow (placeOf s fn off) = true) :
    (readWord fn off s).1 = liveWord s (placeOf s fn off) ∧ (readWord fn off s).2.out = s.out ∧
    ∀ k, Tab.get none k (readWord fn off s).2.hold =
      if k = holdKey fn off then some (liveWord s (above (placeOf s fn off))) else Tab.get none k s.hold := by
  simp only [readWord, hn, hl, Bool.false_eq_true, if_false, if_true, true_and]
  exact ⟨rfl, fun k => Tab.get_set none _ k _ _⟩

/-- The high word of a counter pair: the holding copy, or the live value where there is none; no copy is left. -/
theorem readWord_pairHigh (hn : noBlock s (placeOf s fn off) = false) (hl : isPairLow (placeOf s fn off) = false)
    (h4 : 4 ≤ off) (hb : isPairLow (below (placeOf s fn off)) = true) :
    (readWord fn off s).1 = (Tab.get none (holdKey fn (off - 4)) s.hold).getD (liveWord s (placeOf s fn off)) ∧
    (readWord fn off s).2.out = s.out ∧
    ∀ k, Tab.get none k (readWord fn off s).2.hold =
      if k = holdKey fn (off - 4) then none else Tab.get none k s.hold := by
  simp only [readWord, hn, hl, h4, hb, Bool.false_eq_true, if_false, true_and, if_true]
  cases hc : Tab.get none (holdKey fn (off - 4)) s.hold with
  | some w => exact ⟨rfl, rfl, fun k => Tab.get_set none none k _ _⟩
  | none =>
    refine ⟨rfl, rfl, fun k => ?_⟩
    by_cases hk : k = holdKey fn (off - 4)
    · rw [if_pos hk, hk]
      exact hc
    · rw [if_neg hk]
      rfl

/-- A word that is in no counter pair: no holding copy is made or used. -/
theorem readWord_single (hl : isPairLow (placeOf s fn off) = false) (hb : isPairLow (below (placeOf s fn off)) = false) :
    readWord fn off s = (if noBlock s (placeOf s fn off) then 0 else liveWord s (placeOf s fn off),
      countAccess s (placeOf s fn off)) := by
  simp only [readWord, hl, hb, Bool.false_eq_true, and_false, if_false]
  split <;> rfl

/-- A holding copy belongs to one function. -/
theorem holdKey_ne {fn' : Fn} {k : Nat} (hf : fn' ≠ fn) (hk : k < 2 ^ 26) (ho : off < 2 ^ 26) :
    holdKey fn' k ≠ holdKey fn off := by
  have hv : fn'.val ≠ fn.val := fun h => hf (Fin.ext h)
  unfold holdKey
  omega

end Read

/-! ## Writes (R407) -/

section Write
variable {s : State} {fn : Fn} {off : Nat} {data : List (Option W8)}

/-- The data of a write of one word, entry by entry. -/
theorem four_entries (hd : data.length = 4) : ∃ b0 b1 b2 b3, data = [b0, b1, b2, b3] :=
  match data, hd with
  | [b0, b1, b2, b3], _ => ⟨b0, b1, b2, b3, rfl⟩

/-- The bytes that a write of one word puts into it. -/
theorem enabledBytes_word (off : Nat) (hd : data.length = 4) : enabledBytes off data off = data := by
  obtain ⟨b0, b1, b2, b3, rfl⟩ : ∃ b0 b1 b2 b3, data = [b0, b1, b2, b3] := four_entries hd
  simp [enabledBytes, List.range_succ]

theorem bar0Write_word (hu : fnUp s fn = true) (ha : off % 4 = 0) (hb : off + 4 ≤ barSize fn) (hd : data.length = 4) :
    bar0Write fn off data s = writeWord fn off data off s := by
  unfold bar0Write
  rw [hd, if_neg (by simp [hu, hb]), granules_word off ha]
  rfl

theorem writeWord_none (hd : data.length = 4) (hn : data.all (·.isNone) = true) : writeWord fn off data off s = s := by
  simp only [writeWord, enabledBytes_word off hd, hn, if_true]

/-- All four bytes of a register word: the word is written. -/
theorem writeWord_whole (hs : served s fn) (hbuf : fn = 0 → isBuffer off = false) (hd : data.length = 4)
    (hall : data.all (·.isSome) = true) :
    writeWord fn off data off s = writeAt fn off (word (leNat (data.map (·.getD 0)))) s := by
  have hnone : data.all (·.isNone) = false := by
    obtain ⟨b0, b1, b2, b3, rfl⟩ : ∃ b0 b1 b2 b3, data = [b0, b1, b2, b3] := four_entries hd
    cases b0 <;> simp_all
  have hb : ¬(fn = 0 ∧ isBuffer off = true) := fun h => by simp [hbuf h.1] at h
  simp only [writeWord, enabledBytes_word off hd, hnone, Bool.false_eq_true, if_false, if_neg hb, hall, if_true,
    postWrite_served hs]

/-- Some of the four bytes of a register word, not all. -/
theorem writeWord_part (hbuf : fn = 0 → isBuffer off = false) (hd : data.length = 4)
    (hnone : data.all (·.isNone) = false) (hall : data.all (·.isSome) = false) :
    writeWord fn off data off s = partialWord fn off s := by
  have hb : ¬(fn = 0 ∧ isBuffer off = true) := fun h => by simp [hbuf h.1] at h
  simp only [writeWord, enabledBytes_word off hd, hnone, hall, Bool.false_eq_true, if_false, if_neg hb]

/-- A register word that a served write enables in part stays, with event 0x1105. -/
theorem partialWord_register (hs : served s fn) (h : wordExists s (placeOf s fn off) = true) :
    partialWord fn off s = match placeOf s fn off with
      | .chm n _ => event n 0x1105 0 [off] s
      | _ => eventG 0x1105 [off] s :=
  if_neg (by simp [hs.2.2, h])

theorem length_allBytes (v : W32) : (allBytes v).length = 4 := by simp [allBytes]

theorem allBytes_isSome (v : W32) : (allBytes v).all (·.isSome) = true := by simp [allBytes]

/-- The number that the four bytes of a value hold. -/
theorem word_allBytes (v : W32) : word (leNat ((allBytes v).map (·.getD 0))) = v := by
  have h : (allBytes v).map (·.getD 0) = natLe 4 v.toNat := by simp [allBytes, Function.comp_def]
  rw [h]
  exact word_bytes v

/-- A served write of all four bytes of a register word. -/
theorem bar0Write_allBytes (hs : served s fn) (ha : off % 4 = 0) (hb : off + 4 ≤ barSize fn)
    (hbuf : fn = 0 → isBuffer off = false) (v : W32) : bar0Write fn off (allBytes v) s = writeAt fn off v s := by
  rw [bar0Write_word hs.1 ha hb (length_allBytes v),
    writeWord_whole hs hbuf (length_allBytes v) (allBytes_isSome v), word_allBytes]

end Write

end Sys2Proof.Proofs
end

