-- ==== Sys2Proof/Proofs/ReservedWords.lean ====
section
/-! PROOFS. ReservedWords.lean: a word that is no register reads 0, lies in no counter pair, and takes no write (R12). -/
namespace Sys2Proof.Proofs
open Sys2Proof Sys2Proof.Machine Sys2Proof.Safety

/-! ## The APV block and the event-ring block, which both scopes have -/

theorem apvLive_reserved {j : Nat} (h : apvHas j = false) (a : Apv) : apvLive a j = 0 := by
  simp only [apvHas, decide_eq_false_iff_not] at h
  unfold apvLive
  repeat rw [if_neg (by omega)]

theorem writeApv_reserved {j : Nat} (h : apvHas j = false) (sc : Scope) (v : W32) (s : State) : writeApv sc j v s = s := by
  simp only [apvHas, decide_eq_false_iff_not] at h
  unfold writeApv
  repeat rw [if_neg (by omega)]

/-- The offsets of Table MOD-5. -/
def evrOffsets : List Nat := [0x0, 0x4, 0x8, 0xC, 0x10, 0x14, 0x18, 0x1C, 0x20, 0x24, 0x28]

theorem evrFixed_reserved {j : Nat} (h : j ∉ evrOffsets) : evrFixed j = none := by
  unfold evrFixed
  split
  any_goals rfl
  all_goals exact absurd h (by decide)

theorem evrWrite_reserved {j : Nat} (h : j ∉ evrOffsets) (r : Option Nat) (v : W32) (s : State) :
    evrWrite r j v s = s := by
  have hj : j ≠ 0 ∧ j ≠ 0x1C ∧ j ≠ 0x20 ∧ j ≠ 0x24 := by
    simp only [evrOffsets, List.mem_cons, not_or] at h
    omega
  simp only [evrWrite, evrFixed_reserved h, hj, if_false]

/-! ## The chamber block -/

theorem chmSpec_evr : ∀ j ∈ evrOffsets, (chmSpec (0x1200 + j)).isSome = true := by decide +kernel
theorem chmSpec_okey : ∀ k < 24, (chmSpec (0x40 + 4 * k)).isSome = true := by decide +kernel
theorem chmSpec_stage : ∀ k < 8, (chmSpec (0xC40 + 0x20 * k)).isSome = true := by decide +kernel

/-- Both words of a counter pair are registers. -/
theorem chmSpec_pair : ∀ j ∈ chmPairs, j ≠ 0 ∧ (chmSpec j).isSome = true ∧ (chmSpec (j + 4)).isSome = true := by
  decide +kernel

/-- What a reserved word of a chamber's block is not. -/
theorem chmHas_eq_false {off : Nat} (h : chmHas off = false) :
    (chmSpec off).isSome = false ∧ ¬(0xA00 ≤ off ∧ off < 0xB00 ∧ off % 0x20 < 0x1C) ∧
    (0x100 ≤ off ∧ off < 0x400 → apvHas (off - 0x100) = false) ∧ ¬(0x1400 ≤ off ∧ off < 0x1500) ∧
    ¬(0x10000 ≤ off ∧ off < 0x18000) := by
  simp only [chmHas, Bool.or_eq_false_iff, decide_eq_false_iff_not, not_or] at h
  obtain ⟨hspec, hlist, hapv, hshadow, hcounter⟩ := h
  refine ⟨hspec, hlist, fun hr => ?_, hshadow, hcounter⟩
  exact Bool.eq_false_iff.mpr fun ha => hapv ⟨hr.1, hr.2, ha⟩

theorem chmShown_reserved {off : Nat} (h : (chmSpec off).isSome = false) (s : State) (n : Nat) :
    chmShown s n off = none := by
  unfold chmShown
  split
  any_goals rfl
  all_goals exact absurd h (by decide +kernel)

theorem listLive_reserved {j : Nat} (h : 0x1C ≤ j) (s : State) (n k : Nat) : listLive s n k j = 0 := by
  have hj : ¬j < 0xC ∧ j ≠ 0xC ∧ j ≠ 0x10 ∧ j ≠ 0x14 ∧ j ≠ 0x18 := by omega
  simp only [listLive, hj, if_false, ite_self]

theorem chmLive_reserved {off : Nat} (h : chmHas off = false) (s : State) (n : Nat) : chmLive s n off = 0 := by
  obtain ⟨hspec, hlist, hapv, hshadow, hcounter⟩ := chmHas_eq_false h
  simp only [chmLive, hshadow, if_false]
  split
  · rfl
  split
  · exact apvLive_reserved (hapv ‹_›) _
  split
  · exact listLive_reserved (by omega) _ _ _
  rw [if_neg (by omega)]
  simp [chmShown_reserved hspec, hspec]

theorem writeList_reserved {j : Nat} (h : 0x1C ≤ j) (n k : Nat) (v : W32) (s : State) : writeList n k j v s = s := by
  unfold writeList
  split
  any_goals omega
  rfl

theorem writePlainChm_reserved {off : Nat} (h : (chmSpec off).isSome = false) (n : Nat) (v : W32) (s : State) :
    writePlainChm n off v s = s := by
  unfold writePlainChm
  rw [Option.isNone_iff_eq_none.mp (Option.isSome_eq_false_iff.mp h)]

/-- No reserved word lies among the owner-key words, the stage registers or the event-ring registers. -/
theorem chmSpec_reserved_ranges {off : Nat} (h : (chmSpec off).isSome = false) (ha : off % 4 = 0) :
    ¬(0x40 ≤ off ∧ off < 0xA0) ∧ ¬(0xC40 ≤ off ∧ off < 0xD40 ∧ off % 0x20 = 0) ∧
    (0x1200 ≤ off → off - 0x1200 ∉ evrOffsets) := by
  refine ⟨fun hr => ?_, fun hr => ?_, fun hr hj => ?_⟩
  · have hk := chmSpec_okey ((off - 0x40) / 4) (by omega)
    rw [show 0x40 + 4 * ((off - 0x40) / 4) = off by omega, h] at hk
    cases hk
  · have hk := chmSpec_stage ((off - 0xC40) / 0x20) (by omega)
    rw [show 0xC40 + 0x20 * ((off - 0xC40) / 0x20) = off by omega, h] at hk
    cases hk
  · have hk := chmSpec_evr _ hj
    rw [show 0x1200 + (off - 0x1200) = off by omega, h] at hk
    cases hk

theorem writeChm_reserved {off : Nat} (h : chmHas off = false) (ha : off % 4 = 0) (n : Fin 32) (v : W32) (s : State) :
    writeChm n off v s = s := by
  obtain ⟨hspec, hlist, hapv, -, hcounter⟩ := chmHas_eq_false h
  obtain ⟨hokey, hstage, hevr⟩ := chmSpec_reserved_ranges hspec ha
  simp only [writeChm, hokey, hstage, if_false]
  split
  · exact writeApv_reserved (hapv ‹_›) _ _ _
  split
  · exact writeList_reserved (by omega) _ _ _ _
  split
  next hr => exact evrWrite_reserved (hevr hr.1) _ _ _
  rw [if_neg (by omega), if_neg (by omega)]
  split
  any_goals exact writePlainChm_reserved hspec _ _ _
  all_goals exact absurd hspec (by decide +kernel)

/-! ## The rest of PF BAR0 -/

theorem globalSpec_evr : ∀ j ∈ evrOffsets, (globalSpec (0x4100 + j)).isSome = true := by decide +kernel
theorem globalSpec_pkey : ∀ k < 24, (globalSpec (0x240 + 4 * k)).isSome = true := by decide +kernel

/-- Both words of a counter pair are registers. -/
theorem globalSpec_pair :
    ∀ j ∈ globalPairs, j ≠ 0 ∧ (globalSpec j).isSome = true ∧ (globalSpec (j + 4)).isSome = true := by
  decide +kernel

/-- What a reserved word outside the chamber blocks is not. -/
theorem globalHas_eq_false {off : Nat} (h : globalHas off = false) :
    (globalSpec off).isSome = false ∧ (0x300 ≤ off ∧ off < 0x600 → apvHas (off - 0x300) = false) ∧
    ¬(0x3100 ≤ off ∧ off < 0x3200) ∧ ¬(0x3200 ≤ off ∧ off < 0x3200 + 4 * 94) ∧
    ¬(0x3400 ≤ off ∧ off < 0x3400 + 4 * 224) ∧
    ¬(0x3000000 ≤ off ∧ off < 0x3000000 + 0x100 * 188) ∧
    (0x3020000 ≤ off ∧ off < 0x3020000 + 0x100 * 188 → opSlot ((off - 0x3020000) / 0x100) = false) := by
  simp only [globalHas, Bool.or_eq_false_iff, Bool.and_eq_false_imp, decide_eq_false_iff_not, decide_eq_true_eq, not_or] at h
  obtain ⟨⟨hspec, hapv, hcl, hisland, hhk, hshadow⟩, hop⟩ := h
  refine ⟨hspec, fun hr => ?_, hcl, hisland, hhk, hshadow, hop⟩
  exact Bool.eq_false_iff.mpr fun ha => hapv ⟨hr.1, hr.2, ha⟩

/-- The registers of the port blocks are those of one port. -/
theorem globalSpec_port {off : Nat} (hr : 0x1100 ≤ off ∧ off < 0x1700) :
    (globalSpec off).isSome = (specAt portRegs ((off - 0x1100) % 0x40)).isSome := by
  unfold globalSpec
  rw [if_neg (by omega), if_pos (by omega), Option.isSome_map]

/-- The registers of the debug blocks are those of one die. -/
theorem globalSpec_debug {off : Nat} (hr : 0x400000 ≤ off ∧ off < 0x400040 ∨ 0x800000 ≤ off ∧ off < 0x800040) :
    (globalSpec off).isSome = (specAt dbgRegs (off % 0x400000)).isSome := by
  unfold globalSpec
  rw [if_neg (by omega), if_neg (by omega), if_pos (by omega), Option.isSome_map]

theorem portLive_reserved {j : Nat} (h : (specAt portRegs j).isSome = false) (s : State) (p : Nat) : portLive s p j = 0 := by
  have h4 : j ≠ 4 := by
    rintro rfl
    exact absurd h (by decide +kernel)
  simp only [portLive, h4, h, Bool.false_eq_true, if_false, ite_self]

theorem globalShown_reserved {off : Nat} (h : (globalSpec off).isSome = false) (s : State) : globalShown s off = none := by
  unfold globalShown
  split
  any_goals rfl
  all_goals exact absurd h (by decide +kernel)

/-- No reserved word lies among the platform-key words or the event-ring registers. -/
theorem globalSpec_reserved_ranges {off : Nat} (h : (globalSpec off).isSome = false) (ha : off % 4 = 0) :
    ¬(0x240 ≤ off ∧ off < 0x2A0) ∧ (0x4100 ≤ off → off - 0x4100 ∉ evrOffsets) := by
  refine ⟨fun hr => ?_, fun hr hj => ?_⟩
  · have hk := globalSpec_pkey ((off - 0x240) / 4) (by omega)
    rw [show 0x240 + 4 * ((off - 0x240) / 4) = off by omega, h] at hk
    cases hk
  · have hk := globalSpec_evr _ hj
    rw [show 0x4100 + (off - 0x4100) = off by omega, h] at hk
    cases hk

theorem globalLive_reserved {off : Nat} (h : globalHas off = false) (ha : off % 4 = 0) (s : State) :
    globalLive s off = 0 := by
  obtain ⟨hspec, hapv, hcl, hisland, hhk, hshadow, hop⟩ := globalHas_eq_false h
  obtain ⟨hpkey, -⟩ := globalSpec_reserved_ranges hspec ha
  simp only [globalLive, hpkey, hcl, hisland, hhk, hshadow, h, Bool.false_eq_true, if_false]
  split
  · exact apvLive_reserved (hapv ‹_›) _
  split
  next hr => exact portLive_reserved (globalSpec_port hr ▸ hspec) _ _
  split
  · rfl
  split
  · rfl
  split
  next hr => rw [hop hr, if_neg Bool.false_ne_true]
  simp [globalShown_reserved hspec, hspec]

theorem writeDbg_reserved {j : Nat} (h : (specAt dbgRegs j).isSome = false) (die : Nat) (v : W32) (s : State) :
    writeDbg die j v s = s := by
  have h0 : j ≠ 0 := by
    rintro rfl
    exact absurd h (by decide +kernel)
  unfold writeDbg
  rw [if_neg h0, Option.isNone_iff_eq_none.mp (Option.isSome_eq_false_iff.mp h)]

theorem writePlainGlobal_reserved {off : Nat} (h : (globalSpec off).isSome = false) (v : W32) (s : State) :
    writePlainGlobal off v s = s := by
  unfold writePlainGlobal
  rw [Option.isNone_iff_eq_none.mp (Option.isSome_eq_false_iff.mp h)]

theorem writeGlobal_reserved {off : Nat} (h : globalHas off = false) (ha : off % 4 = 0) (v : W32) (s : State) :
    writeGlobal off v s = s := by
  obtain ⟨hspec, hapv, -⟩ := globalHas_eq_false h
  obtain ⟨hpkey, hevr⟩ := globalSpec_reserved_ranges hspec ha
  simp only [writeGlobal, hpkey, if_false]
  split
  · exact writeApv_reserved (hapv ‹_›) _ _ _
  split
  next hr =>
    rw [globalSpec_port ⟨hr.1, hr.2.1⟩, show (off - 0x1100) % 0x40 = 0 by omega] at hspec
    exact absurd hspec (by decide +kernel)
  split
  next hr => exact evrWrite_reserved (hevr hr.1) _ _ _
  split
  next hr =>
    rw [globalSpec_debug (.inl hr), show off % 0x400000 = off - 0x400000 by omega] at hspec
    exact writeDbg_reserved hspec _ _ _
  split
  next hr =>
    rw [globalSpec_debug (.inr hr), show off % 0x400000 = off - 0x800000 by omega] at hspec
    exact writeDbg_reserved hspec _ _ _
  split
  any_goals exact writePlainGlobal_reserved hspec _ _
  all_goals exact absurd hspec (by decide +kernel)

/-! ## Words by place -/

/-- A word that is no register is neither the low word of a counter pair nor the word above one. -/
theorem contains_pair_reserved {l : List Nat} {spec : Nat → Option RegSpec} {off : Nat}
    (hl : ∀ j ∈ l, j ≠ 0 ∧ (spec j).isSome = true ∧ (spec (j + 4)).isSome = true) (h : (spec off).isSome = false) :
    l.contains off = false ∧ l.contains (off - 4) = false := by
  simp only [List.contains_eq_mem, decide_eq_false_iff_not]
  refine ⟨fun hm => ?_, fun hm => ?_⟩
  · rw [(hl _ hm).2.1] at h
    cases h
  · obtain ⟨h0, -, hhigh⟩ := hl _ hm
    rw [show off - 4 + 4 = off by omega, h] at hhigh
    cases hhigh

theorem isPairLow_reserved {s : State} {p : Place} (h : wordExists s p = false) (hn : noBlock s p = false) :
    isPairLow p = false ∧ isPairLow (below p) = false := by
  cases p with
  | chm n j =>
    have hd : defined s n = true := by simpa [noBlock] using hn
    have hh : chmHas j = false := by simpa [wordExists, hd] using h
    exact contains_pair_reserved chmSpec_pair (chmHas_eq_false hh).1
  | global j => exact contains_pair_reserved globalSpec_pair (globalHas_eq_false h).1
  | nowhere => cases hn

section Word
variable {s : State} {fn : Fn} {off : Nat}

theorem liveWord_reserved (ha : off % 4 = 0) (hbuf : fn = 0 → isBuffer off = false)
    (h : wordExists s (placeOf s fn off) = false) : liveWord s (placeOf s fn off) = 0 := by
  cases hp : placeOf s fn off with
  | chm n j =>
    rw [hp] at h
    by_cases hd : defined s n = true
    · exact chmLive_reserved (by simpa [wordExists, hd] using h) s n
    · simp [liveWord, chmLive, hd]
  | global j =>
    rw [hp] at h
    obtain ⟨h0, rfl⟩ := placeOf_eq_global hp
    simp only [liveWord, hbuf h0, Bool.false_eq_true, if_false]
    exact globalLive_reserved h ha s
  | nowhere => rfl

/-- A read of a reserved word returns 0 and makes or uses no holding copy. -/
theorem readWord_reserved (ha : off % 4 = 0) (hbuf : fn = 0 → isBuffer off = false)
    (h : wordExists s (placeOf s fn off) = false) : readWord fn off s = (0, countAccess s (placeOf s fn off)) := by
  by_cases hn : noBlock s (placeOf s fn off) = true
  · simp only [readWord, hn, if_true]
  · have hn : noBlock s (placeOf s fn off) = false := by simpa using hn
    obtain ⟨hl, hb⟩ := isPairLow_reserved h hn
    rw [readWord_single hl hb, liveWord_reserved ha hbuf h, ite_self]

/-- A whole write of a reserved word changes nothing, but for the count of accesses where its block is there. -/
theorem writeAt_reserved (ha : off % 4 = 0) (h : wordExists s (placeOf s fn off) = false) (v : W32) :
    writeAt fn off v s = s ∨ writeAt fn off v s = countAccess s (placeOf s fn off) := by
  by_cases hf : (hostFrozen s && !isResetWrite (placeOf s fn off)) = true
  · exact .inl (if_pos hf)
  simp only [writeAt, hf]
  cases hp : placeOf s fn off with
  | chm n j =>
    rw [hp] at h
    by_cases hd : defined s n = true
    · have hh : chmHas j = false := by simpa [wordExists, hd] using h
      exact .inr ((if_pos hd).trans (writeChm_reserved hh (placeOf_chm_aligned hp ha) _ _ _))
    · exact .inl (if_neg hd)
  | global j =>
    rw [hp] at h
    obtain ⟨-, rfl⟩ := placeOf_eq_global hp
    exact .inr (writeGlobal_reserved h ha _ _)
  | nowhere => exact .inl rfl

theorem partialWord_reserved (h : wordExists s (placeOf s fn off) = false) : partialWord fn off s = s := by
  simp [partialWord, h]

/-- A write of a reserved word, of all of its bytes or of some, is discarded. -/
theorem writeWord_reserved {data : List (Option W8)} (hs : served s fn) (ha : off % 4 = 0)
    (hbuf : fn = 0 → isBuffer off = false) (hd : data.length = 4) (h : wordExists s (placeOf s fn off) = false) :
    writeWord fn off data off s = s ∨ writeWord fn off data off s = countAccess s (placeOf s fn off) := by
  by_cases hnone : data.all (·.isNone) = true
  · exact .inl (writeWord_none hd hnone)
  by_cases hall : data.all (·.isSome) = true
  · rw [writeWord_whole hs hbuf hd hall]
    exact writeAt_reserved ha h _
  · rw [writeWord_part hbuf hd (by simpa using hnone) (by simpa using hall)]
    exact .inl (partialWord_reserved h)

end Word

end Sys2Proof.Proofs
end

