-- ==== Sys2Proof/Proofs/Scope.lean ====
section
/-! PROOFS. Scope.lean: the statements on reset and register access (00_scope.md). -/
namespace Sys2Proof.Proofs
open Sys2Proof Sys2Proof.Machine Sys2Proof.Safety

/-! ## Counter pairs -/

/-- The time mirror of a chamber's block is the module's time counter (R32). -/
theorem liveWord_time {s : State} {n : Nat} (h : defined s n = true) :
    liveWord s (.chm n 0x3FF00) = liveWord s (.global 0x100) ∧
    liveWord s (.chm n 0x3FF04) = liveWord s (.global 0x104) := by
  have hb : isBuffer 0x100 = false ∧ isBuffer 0x104 = false := by decide
  simp [liveWord, chmLive, globalLive, chmShown, globalShown, h, hb]

/-- Both are read in pairs (R6, R32). -/
theorem isPairLow_time (n : Nat) : isPairLow (.chm n 0x3FF00) = true ∧ isPairLow (.global 0x100) = true := by
  show chmPairs.contains 0x3FF00 = true ∧ globalPairs.contains 0x100 = true
  decide +kernel

/-- Settles O10: a read of one word is `readWord`, whose two cases on a counter pair are the two clauses. -/
theorem counterPairsReadTogether : Obligations.CounterPairsReadTogether := by
  unfold Obligations.CounterPairsReadTogether
  refine ⟨fun s fn off hu ha hb hn hl => ?_, fun s fn off hu ha h4 hb hn hl hlow => ?_, fun s n hd => ?_⟩
  · refine ⟨_, (exec_counterLowRead fn off 4 s).trans (congrArg _ (bar0Read_word hu ha hb)), ?_⟩
    obtain ⟨hval, hout, hhold⟩ := readWord_pairLow hn hl
    refine ⟨?_, (hhold _).trans (if_pos rfl), fun fn' hf k hk => (hhold _).trans (if_neg (holdKey_ne hf hk off.isLt))⟩
    rw [emit_out, hval, hout]
  · refine ⟨_, (exec_counterLowRead fn off 4 s).trans (congrArg _ (bar0Read_word hu ha hb)), ?_⟩
    obtain ⟨hval, hout, hhold⟩ := readWord_pairHigh hn hl h4 hlow
    refine ⟨?_, (hhold _).trans (if_pos rfl), fun fn' hf k hk => (hhold _).trans (if_neg ?_)⟩
    · rw [emit_out, hval, hout]
    · exact holdKey_ne hf hk (by have := off.isLt; omega)
  · obtain ⟨hlo, hhi⟩ := liveWord_time hd
    exact ⟨hlo, hhi, isPairLow_time n⟩

/-! ## Whole and partial writes -/

/-- Settles O11: a served access of one word is a write of the word or, with a byte left out, the partial-write event. -/
theorem registerWordsAreWrittenWhole : Obligations.RegisterWordsAreWrittenWhole := by
  unfold Obligations.RegisterWordsAreWrittenWhole
  refine ⟨fun s fn off v hs ha hb hbuf => ?_, fun s fn off b0 b1 b2 b3 hs ha hb hbuf hex hsome hmissing => ?_⟩
  · rw [exec_registerWrite, exec_rwaWrite, bar0Write_allBytes hs ha hb hbuf]
    exact ⟨rfl, rfl⟩
  · have hnone : [b0, b1, b2, b3].all (·.isNone) = false := by
      simp only [List.all_eq_not_any_not, Option.not_isNone, hsome, Bool.not_true]
    have hall : [b0, b1, b2, b3].all (·.isSome) = false := by
      simp only [List.all_eq_not_any_not, Option.not_isSome, hmissing, Bool.not_true]
    rw [exec_registerWrite, bar0Write_word hs.1 ha hb rfl, writeWord_part hbuf rfl hnone hall]
    exact congrArg _ (partialWord_register hs hex)

/-! ## Reserved ranges -/

/-- The four bytes of a word that reads 0. -/
theorem natLe_zero : natLe 4 (0 : W32).toNat = [0, 0, 0, 0] := by decide

/-- Settles O12: a reserved word reads 0, takes no write, and lies in no block that the function does not reach. -/
theorem reservedRangesReadZeroAndDiscard : Obligations.ReservedRangesReadZeroAndDiscard := by
  unfold Obligations.ReservedRangesReadZeroAndDiscard
  refine ⟨fun s fn off hu ha hb hbuf h => ⟨?_, fun hs data hd => ?_⟩, fun s n j hd => wordExists_chm_undefined hd j,
    fun s fn off n j h0 hp => (fnCh_of_placeOf_chm h0 hp).1⟩
  · refine ⟨emit (.cpl fn [0, 0, 0, 0] false) (countAccess s (placeOf s fn off.toNat)), ?_, rfl,
      countAccess_frame s (placeOf s fn off.toNat)⟩
    rw [exec_counterLowRead, show (4 : BitVec 13).toNat = 4 from rfl, bar0Read_word hu ha hb, readWord_reserved ha hbuf h]
    simp only [natLe_zero]
  · rw [exec_registerWrite, bar0Write_word hu ha hb hd]
    rcases writeWord_reserved hs ha hbuf hd h with hw | hw
    · exact ⟨s, congrArg _ hw, rfl⟩
    · exact ⟨countAccess s (placeOf s fn off.toNat), congrArg _ hw, countAccess_frame s _⟩

/-! ## Reset -/

/-- A key that a table does not list reads as the default. -/
theorem tabGet_of_notMem {β : Type} {d : β} {k : Nat} {t : Tab β} (h : k ∉ t.map (·.1)) : Tab.get d k t = d := by
  induction t with
  | nil => rfl
  | cons e t ih =>
    simp only [List.map_cons, List.mem_cons, not_or] at h
    obtain ⟨hk, ht⟩ := h
    rw [Tab.get, if_neg (Ne.symm hk), ih ht]

/-- The registers of the global block at reset are those of the tables' reset columns. -/
theorem gget_reset (off : Nat) : gget off State.reset = Tab.get 0 off coldRegs := rfl

/-- Settles O8: the reset state lists no chamber, port or group, and of the registers those of `coldRegs`. -/
theorem resetIsPowerOff : Obligations.ResetIsPowerOff := by
  unfold Obligations.ResetIsPowerOff
  refine ⟨rfl, rfl, rfl, fun _ => rfl, fun _ => rfl, fun _ _ => rfl, ?_⟩
  simp only [gget_reset]
  refine ⟨?_, ?_, ?_, ?_, ?_, ?_, ?_, ?_, ?_, ?_, ?_, ?_, ?_, fun off h => tabGet_of_notMem h⟩
  all_goals decide

end Sys2Proof.Proofs
end

