-- ==== Sys2Proof/Proofs/OperationsInFlight.lean ====
section
/-! PROOFS. OperationsInFlight.lean: the operation in flight with a sequence number, before and after a change of it,
and what its descriptor's words hold (Machine/Retire.lean, Machine/Sched.lean). -/
namespace Sys2Proof.Proofs
open Sys2Proof Sys2Proof.Machine Sys2Proof.Safety

/-! ## The operation with a sequence number -/

theorem seq_of_opOf {c : Chamber} {seq : W32} {o : Op} (h : opOf c seq = some o) : o.seq = seq := by
  simpa using List.find?_some h

/-- A change that keeps sequence numbers changes the operation that the number names. -/
theorem opOf_modOp_same {f : Op → Op} (hf : ∀ q, (f q).seq = q.seq) (seq : W32) (c : Chamber) :
    opOf (modOp seq f c) seq = (opOf c seq).map f := by
  have hp : ((fun q : Op => q.seq == seq) ∘ fun q => if q.seq = seq then f q else q) = fun q => q.seq == seq := by
    funext q
    by_cases h : q.seq = seq <;> simp [h, hf]
  unfold opOf modOp
  rw [List.find?_map, hp]
  refine Option.map_congr fun q hq => if_pos ?_
  exact seq_of_opOf hq

/-- A change that marks an operation as begun leaves it begun. -/
theorem begun_of_opOf_modOp {f : Op → Op} {seq : W32} {c : Chamber} {q : Op} (h : opOf (modOp seq f c) seq = some q)
    (hf : ∀ p, (f p).seq = p.seq ∧ (f p).begun = true) : q.begun = true := by
  rw [opOf_modOp_same fun q => (hf q).1] at h
  obtain ⟨p, -, rfl⟩ := Option.map_eq_some_iff.mp h
  exact (hf p).2

@[simp] theorem cget_modOp (off : Nat) (seq : W32) (f : Op → Op) (c : Chamber) :
    cget off (modOp seq f c) = cget off c := rfl

@[simp] theorem lines_modOp (seq : W32) (f : Op → Op) (c : Chamber) : (modOp seq f c).lines = c.lines := rfl

@[simp] theorem lines_cset (off : Nat) (v : W32) (c : Chamber) : (cset off v c).lines = c.lines := rfl

/-- An operation that executes carries the sequence number that names it. -/
theorem seq_of_executing {s : State} {n : Nat} {seq : W32} {types : List Nat} {o : Op}
    (h : executing s n seq types = some o) : o.seq = seq := by
  unfold executing at h
  split at h
  next q hq =>
    obtain ⟨-, hqo⟩ := Option.ite_none_right_eq_some.mp h
    exact Option.some.inj hqo ▸ seq_of_opOf hq
  next => cases h

/-! ## Words of a descriptor -/

theorem df_lt (o : Op) (off n : Nat) : df o off n < 256 ^ n := by
  simpa [df, at_] using leNat_lt (slice o.desc off n)

/-- A bit of a descriptor's word. -/
theorem bit_df {i : Nat} (hi : i < 32) (o : Op) (off : Nat) :
    bit (BitVec.ofNat 32 (df o off 4)) i = decide (df o off 4 / 2 ^ i % 2 = 1) := by
  rw [bit, BitVec.getLsbD_ofNat, decide_eq_true hi, Bool.true_and, Nat.testBit_eq_decide_div_mod_eq]

/-- A field of a descriptor's word. -/
theorem fld_df (o : Op) (off hi lo : Nat) :
    fld (BitVec.ofNat 32 (df o off 4)) hi lo = df o off 4 / 2 ^ lo % 2 ^ (hi + 1 - lo) := by
  have hlt : df o off 4 < 2 ^ 32 := df_lt o off 4
  rw [fld, BitVec.toNat_ofNat, Nat.mod_eq_of_lt hlt, Nat.shiftRight_eq_div_pow]

end Sys2Proof.Proofs
end

