-- ==== Sys2Proof/Proofs/MatrixReduceUpdate.lean ====
section
/-! PROOFS. MatrixReduceUpdate.lean: the work of a MATMUL, a CONV, a REDUCE and an UPDATE whose accesses do not fault
(R111, R113, R238, R266, R267). -/
namespace Sys2Proof.Proofs
open Sys2Proof Sys2Proof.Machine Sys2Proof.Safety

/-! ## MATMUL and CONV -/

/-- The converted runs that an operation puts out: none where ACC_OUT is HOLD (R101). -/
def partsOut (o : Op) (ts : List TileRes) : List OutPart := if accOut o = 1 then [] else outParts o ts

/-- What a MATMUL or CONV that started in `s` has counted once its tiles are computed (R102). -/
def tilesCounted (n : Nat) (o : Op) (s : State) (ts : List TileRes) (t : State) : State :=
  if keptSat (chOf s n) o = true
  then modCh n (fun d => cmod 0x400 (fun w => setBit w 0 true)
    (modOp o.seq (fun q => { q with satFlag := true }) d)) (matCounts n o ts (partsOut o ts) t)
  else matCounts n o ts (partsOut o ts) t

section Matrix

variable {n : Nat} {o : Op} {s t : State} {ts : List TileRes}
  (hc : matCompute n o (linkedTo (chOf s n) o) s = (.ok (.ok ts), t))
include hc

theorem runMatrix_of_nextJoins (hj : nextJoins n o (tilesCounted n o s ts t) = true) :
    runMatrix n o s =
      stageAhead n o.list s (linkOp n o ts (modCh n (holdTiles o ts) (tilesCounted n o s ts t))) := by
  unfold tilesCounted partsOut at hj ⊢
  simp only [runMatrix, hc, ifdo, hj, if_true]

theorem runMatrix_of_output {v : State} (hj : nextJoins n o (tilesCounted n o s ts t) = false)
    (hv : outputParts n o (partsOut o ts) (tilesCounted n o s ts t) = (.ok (), v)) :
    runMatrix n o s =
      closeOp n o (linkedTo (chOf s n) o) (stageAhead n o.list s (modCh n (holdTiles o ts) v)) := by
  unfold tilesCounted partsOut at hj hv
  simp only [runMatrix, hc, ifdo, hj, hv, Bool.false_eq_true, if_false]

end Matrix

/-! ## REDUCE -/

/-- The values of the elements of a REDUCE. -/
def reduceValues (o : Op) (bs : Bytes) : List XV :=
  (List.range (df o 0x20 8)).map (fun i =>
    if df o 0x28 1 = 7 then decodeF bf16 (at_ bs (2 * i) 2) else decodeF f32 (at_ bs (4 * i) 4))

/-- The result of a REDUCE and the number of its elements that are not finite. -/
def reduceAnswer (o : Op) (bs : Bytes) : W32 × Nat := reduceResult (df o 0x29 1) (reduceValues o bs)

/-- What a REDUCE has counted once it has its result: one, if the result is not finite (R276). -/
def reduceCounted (n : Nat) (o : Op) (bs : Bytes) (t : State) : State :=
  let bad := if finite32 (reduceAnswer o bs).1 = true then 0 else 1
  modCh n (fun d => caddPair 0xE10 bad (modOp o.seq (fun q => { q with nonfin := bad }) d)) t

/-- The block that a REDUCE leaves at its destination (R238). -/
def reduceBlock (o : Op) (bs : Bytes) : Bytes :=
  natLe 4 (reduceAnswer o bs).1.toNat ++ natLe 4 (min (reduceAnswer o bs).2 0xFFFFFFFF) ++ natLe 8 (df o 0x20 8) ++
    List.replicate 48 0

/-- The contribution of a REDUCE to a remote address (R238). -/
def reduceContrib (o : Op) (bs : Bytes) : Contrib :=
  { seq := o.seq, fn := if df o 0x29 1 = 2 then 3 else 0, addr := BitVec.ofNat 64 (lineAddr (df o 0x18 8)), hint := 0
    mask := byteMask (df o 0x18 8 % 256) 4
    data := List.replicate (df o 0x18 8 % 256) 0 ++ natLe 4 (reduceAnswer o bs).1.toNat }

/-- Both formats read their elements one after another. -/
theorem reduceValues_eq (o : Op) (bs : Bytes) :
    (List.range (df o 0x20 8)).map (fun i => decodeF (if df o 0x28 1 = 7 then bf16 else f32)
      (at_ bs ((if df o 0x28 1 = 7 then 2 else 4) * i) (if df o 0x28 1 = 7 then 2 else 4))) = reduceValues o bs := by
  unfold reduceValues
  by_cases h : df o 0x28 1 = 7
  · simp only [h, if_true]
  · simp only [h, if_false]

section Reduce

variable {n : Nat} {o : Op} {s t : State} {bs : Bytes} (hcount : 0 < df o 0x20 8)
  (hl : dLoad n (agent 2) (df o 0x2A 1) (df o 0x10 8) ((if df o 0x28 1 = 7 then 2 else 4) * df o 0x20 8) s = (.ok bs, t))
include hcount hl

theorem runReduce_of_local {v : State} (hr : df o 0x2B 1 ≠ 1)
    (hv : dStore n (agent 2) (df o 0x2C 1) (df o 0x18 8) (reduceBlock o bs) (reduceCounted n o bs t) = (.ok (), v)) :
    runReduce n o s = setOp n o.seq (fun q => { q with begun := true }) v := by
  unfold reduceBlock reduceCounted reduceAnswer at hv
  simp only [runReduce, hl, Nat.ne_of_gt hcount, reduceValues_eq, hr, if_false, hv]

theorem runReduce_of_remote (hr : df o 0x2B 1 = 1) (ha : badRemote (chOf s n) (df o 0x18 8) = false) :
    runReduce n o s = setOp n o.seq (fun q => { q with begun := true })
      (contribute n (reduceContrib o bs) (reduceCounted n o bs t)) := by
  simp only [runReduce, hl, Nat.ne_of_gt hcount, reduceValues_eq, hr, ha, if_true, if_false, Bool.false_eq_true]
  rfl

end Reduce

/-! ## UPDATE -/

theorem applyUpdate_of_units {n : Nat} {o : Op} {p : Params} {f : W32} {s v : State}
    (h : eachRes (doUnit n o p f) (List.range (df o 0x58 4 / 64)) s = (.ok (), v)) :
    applyUpdate n o p f s = modCh n (fun d => modOp o.seq (fun q => { q with begun := true })
      { d with stepUpdates := d.stepUpdates + 1 }) v := by
  rw [applyUpdate, h]

/-- The word at 0x60 of an UPDATE: NORM_EN and the space of the sum of squares (Table OPT-2). -/
theorem normEn_df (o : Op) : bit (BitVec.ofNat 32 (df o 0x60 4)) 9 = decide (df o 0x60 4 / 2 ^ 9 % 2 = 1) :=
  bit_df (by decide) o 0x60

theorem normSpace_df (o : Op) : fld (BitVec.ofNat 32 (df o 0x60 4)) 5 4 = df o 0x60 4 / 2 ^ 4 % 4 := fld_df o 0x60 5 4

section Update

variable {n : Nat} {o : Op} {s t u : State} {bs sb : Bytes}
  (hp : bulkLoad n (agent 1) (df o 0x40 8) 64 false s = (.ok bs, t))
include hp

/-- With NORM_EN = 0 the units are applied with the factor 1. -/
theorem runUpdate_without_norm (hw : df o 0x60 4 / 2 ^ 9 % 2 = 0) :
    runUpdate n o s = applyUpdate n o (paramsOf bs) 0x3F800000#32 t := by
  simp only [runUpdate, hp, normEn_df, hw, decide_eq_true_eq, Nat.zero_ne_one, if_false]

variable (hw : df o 0x60 4 / 2 ^ 9 % 2 = 1)
  (hs : dLoad n (agent 1) (df o 0x60 4 / 2 ^ 4 % 4) (df o 0x38 8) 4 t = (.ok sb, u))
include hw hs

/-- A norm that is not finite, or beyond the threshold, gives no factor, and the step is skipped. -/
theorem runUpdate_of_no_factor
    (hf : clipFactor (paramsOf bs) (creg u n 0xE00) (sqrtF (BitVec.ofNat 32 (leNat sb))) = none) :
    runUpdate n o s = skipUpdate n o (BitVec.ofNat 32 (leNat sb)) (sqrtF (BitVec.ofNat 32 (leNat sb))) u := by
  simp only [runUpdate, hp, normEn_df, hw, decide_true, if_true, normSpace_df, hs, hf]

theorem runUpdate_of_factor {f : W32}
    (hf : clipFactor (paramsOf bs) (creg u n 0xE00) (sqrtF (BitVec.ofNat 32 (leNat sb))) = some f) :
    runUpdate n o s = applyUpdate n o (paramsOf bs) f u := by
  simp only [runUpdate, hp, normEn_df, hw, decide_true, if_true, normSpace_df, hs, hf]

end Update

end Sys2Proof.Proofs
end

