-- ==== Sys2Proof/Proofs/SealFlushEpoch.lean ====
section
/-! PROOFS. SealFlushEpoch.lean: the work of a SEAL whose loss reads without a fault, and what a FLUSH and an EPOCH
leave in the echo cache and in the operation (R208, R255, R274, R278). -/
namespace Sys2Proof.Proofs
open Sys2Proof Sys2Proof.Machine Sys2Proof.Safety

/-! ## SEAL -/

theorem runSeal_of_no_loss {n : Nat} {o : Op} {s : State} (h : df o 0x14 4 % 2 = 0) :
    runSeal n o s = writeSeal n o false false 0 s := by
  simp only [runSeal, h, if_true]

section Seal

variable {n : Nat} {o : Op} {s t : State} {lb : Bytes} (hw : df o 0x14 4 % 2 = 1)
  (hl : dLoad n (agent 4) (df o 0x14 4 / 2 % 2) (df o 0x18 8) 4 s = (.ok lb, t))
include hw hl

/-- A loss that is no spike moves the detector on. -/
theorem runSeal_of_no_spike (hd : (detect (chOf t n) (BitVec.ofNat 32 (leNat lb))).1 = false) :
    runSeal n o s = writeSeal n o false true (BitVec.ofNat 32 (leNat lb))
      (modCh n (fun c => cset 0xE38 (detect (chOf t n) (BitVec.ofNat 32 (leNat lb))).2.2
        (cset 0xE30 (detect (chOf t n) (BitVec.ofNat 32 (leNat lb))).2.1 c))
        (setCreg n 0xE34 (BitVec.ofNat 32 (leNat lb)) t)) := by
  simp only [runSeal, hw, hl, hd, Nat.one_ne_zero, Bool.false_eq_true, if_false]
  rfl

variable (hd : (detect (chOf t n) (BitVec.ofNat 32 (leNat lb))).1 = true)
include hd

theorem runSeal_of_spike (hh : bit (creg t n 0xE28) 4 = false) :
    runSeal n o s = writeSeal n o true true (BitVec.ofNat 32 (leNat lb))
      (raiseSpike n o false (BitVec.ofNat 32 (leNat lb)) (setCreg n 0xE34 (BitVec.ofNat 32 (leNat lb)) t)) := by
  simp only [runSeal, hw, hl, hd, hh, Nat.one_ne_zero, Bool.false_eq_true, if_true, if_false]
  rfl

/-- Where the detector is told to halt, the SEAL fails instead. -/
theorem runSeal_of_fatal_spike (hh : bit (creg t n 0xE28) 4 = true) :
    runSeal n o s = retireOp n { o with ended := (setCreg n 0xE34 (BitVec.ofNat 32 (leNat lb)) t).time } .fault
      (raiseSpike n o true (BitVec.ofNat 32 (leNat lb))
        (haltFor n o.seq 0xD02 (setCreg n 0xE34 (BitVec.ofNat 32 (leNat lb)) t))) := by
  simp only [runSeal, hw, hl, hd, hh, Nat.one_ne_zero, if_true, if_false]
  rfl

end Seal

/-! ## Lines and waiting allocations -/

theorem mem_lines_dropReads {n : Nat} {p : Line → Bool} {s : State} {l : Line}
    (h : l ∈ (chOf (dropReads n p s) n).lines) (hp : p l = true) : l.st ≠ .read := by
  rw [dropReads, chOf_modCh_same] at h
  have hl := (List.mem_filter.mp h).2
  simpa [hp] using hl

@[simp] theorem lines_dropInstalls (n : Nat) (o : Op) (s : State) :
    (chOf (dropInstalls n o s) n).lines = (chOf s n).lines := by
  rw [dropInstalls, chOf_modCh_same]

/-! ## FLUSH -/

/-- A FLUSH that invalidates leaves no READ line in its scope (R208). -/
theorem not_read_of_mem_lines_runFlush {n : Nat} {o : Op} {s : State} (hw : df o 0x20 4 / 2 % 2 = 1) {l : Line}
    (hl : l ∈ (chOf (runFlush n o s) n).lines) (hs : inScope o l.addr.toNat = true) : l.st ≠ .read := by
  simp only [runFlush, chOf_modCh_same, lines_modOp, hw, beq_self_eq_true, ifdo, if_true, lines_dropInstalls] at hl
  exact mem_lines_dropReads hl hs

theorem begun_runFlush {n : Nat} {o : Op} {s : State} {q : Op} (h : opOf (chOf (runFlush n o s) n) o.seq = some q) :
    q.begun = true := by
  rw [runFlush, chOf_modCh_same] at h
  exact begun_of_opOf_modOp h fun _ => ⟨rfl, rfl⟩

/-! ## EPOCH -/

/-- An EPOCH that invalidates leaves no READ line (R255). -/
theorem not_read_of_mem_lines_runEpoch {n : Nat} {o : Op} {s : State} (hw : df o 0x11 1 % 2 = 1) {l : Line}
    (hl : l ∈ (chOf (runEpoch n o s) n).lines) : l.st ≠ .read := by
  rw [runEpoch, chOf_modCh_same, lines_modOp, lines_cset] at hl
  simp only [hw, beq_self_eq_true, ifdo, if_true, chOf_modCh_same] at hl
  exact mem_lines_dropReads hl rfl

theorem begun_runEpoch {n : Nat} {o : Op} {s : State} {q : Op} (h : opOf (chOf (runEpoch n o s) n) o.seq = some q) :
    q.begun = true := by
  rw [runEpoch, chOf_modCh_same] at h
  exact begun_of_opOf_modOp h fun _ => ⟨rfl, rfl⟩

/-- PIP_EPOCH_STAT names the epoch that follows, and says that this one drains (R255). -/
theorem creg_runEpoch (n : Nat) (o : Op) (s : State) : creg (runEpoch n o s) n 0xC0C =
    BitVec.ofNat 32 ((if df o 0x10 1 = 1 then df o 0x12 2 else (fld (creg s n 0x808) 15 0 + 1) % 65536) * 65536 + 1) := by
  rw [creg, runEpoch, chOf_modCh_same, cget_modOp, cget_cset_same]

end Sys2Proof.Proofs
end

