-- ==== Sys2Proof/Proofs/SnapshotAndTransfer.lean ====
section
/-! PROOFS. SnapshotAndTransfer.lean: the work of a SNAPSHOT from its latching to its dump, and what a TRANSFER asks of
its source (R234, R236, R400). -/
namespace Sys2Proof.Proofs
open Sys2Proof Sys2Proof.Machine Sys2Proof.Safety

/-! ## SNAPSHOT -/

section Snapshot

variable {n : Nat} {o : Op} {s : State} {r : Latching} (hr : (chOf (snapTick n s) n).snap = some r)
include hr

theorem runSnapshot_of_latching (hl : r.left ≠ []) : runSnapshot n o s = snapTick n s := by
  simp only [runSnapshot, hr, hl, if_false]

variable (hl : r.left = [])
include hl

/-- A SNAPSHOT without a destination ends with its latching. -/
theorem runSnapshot_without_dump (hd : df o 0x18 1 = 2) : runSnapshot n o s =
    setOp n o.seq (fun q => { q with begun := true }) (modCh n (fun c => { c with snap := none }) (snapTick n s)) := by
  simp only [runSnapshot, hr, hl, dumpSnapshot, hd, if_true]

theorem runSnapshot_of_dump {v : State} (hd : df o 0x18 1 ≠ 2)
    (hv : dStore n (agent 4) (df o 0x18 1) (df o 0x10 8)
      (dumpBytes (snapTick n s) n o.seq (o.start.toNat + 2000)) (snapTick n s) = (.ok (), v)) : runSnapshot n o s =
    setOp n o.seq (fun q => { q with begun := true }) (modCh n (fun c => { c with snap := none }) v) := by
  simp only [runSnapshot, hr, hl, dumpSnapshot, hd, hv, if_true, if_false]

end Snapshot

/-! ## TRANSFER -/

theorem hostRead_out (fn : Fn) (die n : Nat) (seq : W32) (stream addr len : Nat) (s : State) :
    (hostRead fn die n seq stream addr len s).out =
      .hostRead fn s.pcie.hostTag (BitVec.ofNat 64 addr) len :: s.out := rfl

/-- Local memory is asked for nothing: its bytes come with SOURCE_BURST_ARRIVAL (R236). -/
theorem askBurst_of_local {n i : Nat} {s : State} (h : srcSpace (streamAt (chOf s n) i) ≤ 1) : askBurst n i s = s := by
  have h2 : srcSpace (streamAt (chOf s n) i) ≠ 2 := by omega
  have h3 : srcSpace (streamAt (chOf s n) i) ≠ 3 := by omega
  simp only [askBurst, h2, h3, if_false, ite_self]

section Asking

variable {n i : Nat} {s : State} (hlive : streamLive (streamAt (chOf s n) i) = true)
  (hleft : arrivedBytes (streamAt (chOf s n) i) < (streamAt (chOf s n) i).length)
include hlive hleft

/-- A live stream that has bytes outstanding is not stopped by what it holds. -/
theorem askBurst_guard : (!streamLive (streamAt (chOf s n) i) ||
    arrivedBytes (streamAt (chOf s n) i) == (streamAt (chOf s n) i).length) = false := by
  simp [hlive, Nat.ne_of_lt hleft]

/-- The host is asked for the next burst, no longer than its longest read (R372). -/
theorem askBurst_of_host (h3 : srcSpace (streamAt (chOf s n) i) = 3) (hissue : canIssue s (chFn s n) = true)
    (hnone : s.hostReads.any (fun r => r.ch == n && r.stream == i && r.seq == (streamAt (chOf s n) i).seq) = false)
    (hroom : s.hostReads.length < 768) :
    askBurst n i s = hostRead (chFn s n) (streamDie n (streamAt (chOf s n) i) s) n (streamAt (chOf s n) i).seq i
      ((streamAt (chOf s n) i).src.toNat + arrivedBytes (streamAt (chOf s n) i))
      (min (burstLen (streamAt (chOf s n) i)) (readLimit s (chFn s n))) s := by
  have hfull : ¬ hostReadLimit ≤ s.hostReads.length := Nat.not_le.mpr hroom
  simp [askBurst, askBurst_guard hlive hleft, h3, hnone, hissue, hfull]

/-- A remote owner is asked for the line of the next byte (R236). -/
theorem askBurst_of_remote (h2 : srcSpace (streamAt (chOf s n) i) = 2)
    (hgood : badRemote (chOf s n) ((streamAt (chOf s n) i).src.toNat + arrivedBytes (streamAt (chOf s n) i)) = false)
    (hnone : (chOf s n).reqs.any (fun r => r.kind == .streamRead && r.stream == i) = false) :
    let la := lineAddr ((streamAt (chOf s n) i).src.toNat + arrivedBytes (streamAt (chOf s n) i))
    askBurst n i s = request n
      { tag := newTag (chOf s n), kind := .streamRead, addr := BitVec.ofNat 64 la, deadline := 0
        seq := (streamAt (chOf s n) i).seq
        pkt := toOwner s n la 1 (addrField la ++ natLe 4 (newTag (chOf s n))), stream := i } s := by
  simp only [askBurst, askBurst_guard hlive hleft, h2, hnone, hgood, Bool.false_eq_true, if_true, if_false]

end Asking

end Sys2Proof.Proofs
end

