-- ==== Sys2Proof/Proofs/MatrixEngine.lean ====
section
/-! PROOFS. MatrixEngine.lean: the statement on the work of executing operations (04_matrix_engine.md). -/
namespace Sys2Proof.Proofs
open Sys2Proof Sys2Proof.Machine Sys2Proof.Safety

/-! ## The command of an executing operation is its work -/

section Commands

variable {s : State} {n : Fin 32} {seq : W32} {o : Op}

theorem exec_transfer (h : executing s n seq [4] = some o) :
    exec (.transfer n seq) s = .next (settleAll n (askBurst n (streamOf o) s)) := by
  change execTransfer n seq s = _
  rw [execTransfer, h]

variable (hb : o.begun = false)
include hb

theorem exec_matmul (h : executing s n seq [1] = some o) :
    exec (.matmul n seq) s = .next (settleAll n (runMatrix n o s)) := by
  change execMatmul n seq s = _
  simp only [execMatmul, h, hb, Bool.false_eq_true, if_false]

theorem exec_conv (h : executing s n seq [2] = some o) :
    exec (.conv n seq) s = .next (settleAll n (runMatrix n o s)) := by
  change execConv n seq s = _
  simp only [execConv, h, hb, Bool.false_eq_true, if_false]

theorem exec_reduce (h : executing s n seq [5] = some o) :
    exec (.reduce n seq) s = .next (settleAll n (runReduce n o s)) := by
  change execReduce n seq s = _
  simp only [execReduce, h, hb, Bool.false_eq_true, if_false]

theorem exec_update (h : executing s n seq [6] = some o) :
    exec (.update n seq) s = .next (settleAll n (stageAhead n o.list s (runUpdate n o s))) := by
  change execUpdate n seq s = _
  simp only [execUpdate, h, hb, Bool.false_eq_true, if_false]

theorem exec_seal (h : executing s n seq [0xB] = some o) :
    exec (.seal n seq) s = .next (settleAll n (runSeal n o s)) := by
  change execSeal n seq s = _
  simp only [execSeal, h, hb, Bool.false_eq_true, if_false]

theorem exec_flush (h : executing s n seq [0xC] = some o) :
    exec (.flush n seq) s = .next (settleAll n (runFlush n o s)) := by
  change execFlush n seq s = _
  simp only [execFlush, h, hb, Bool.false_eq_true, if_false]

theorem exec_epoch (h : executing s n seq [9] = some o) :
    exec (.epoch n seq) s = .next (settleAll n (runEpoch n o s)) := by
  change execEpoch n seq s = _
  simp only [execEpoch, h, hb, Bool.false_eq_true, if_false]

theorem exec_snapshot (h : executing s n seq [0xA] = some o) (ht : o.start.toNat + 2000 ≤ s.time.toNat) :
    exec (.snapshot n seq) s = .next (settleAll n (runSnapshot n o s)) := by
  change execSnapshot n seq s = _
  simp only [execSnapshot, h, hb, now, ht, Bool.not_false, and_self, if_true]

omit hb in
/-- A SNAPSHOT does nothing before 2 µs after its start (R400). -/
theorem exec_snapshot_early (h : executing s n seq [0xA] = some o) (ht : s.time.toNat < o.start.toNat + 2000) :
    exec (.snapshot n seq) s = .next s := by
  change execSnapshot n seq s = _
  simp only [execSnapshot, h, now, Nat.not_le.mpr ht, and_false, if_false]

/-- The two commands of the matrix engine do the same work (R111, R113). -/
theorem exec_matrix {c : Nat × Instr} (hc : c ∈ [(1, Instr.matmul n seq), (2, Instr.conv n seq)])
    (h : executing s n seq [c.1] = some o) : exec c.2 s = .next (settleAll n (runMatrix n o s)) := by
  rcases List.mem_cons.mp hc with rfl | hc
  · exact exec_matmul hb h
  · obtain rfl := List.mem_singleton.mp hc
    exact exec_conv hb h

end Commands

/-- Settles O37: the command of an operation is its work, and the work's lemmas give each outcome. -/
theorem executingOperationsDoTheirWork : Obligations.ExecutingOperationsDoTheirWork := by
  unfold Obligations.ExecutingOperationsDoTheirWork
  intro s n seq o hb
  refine ⟨?matrix, ?reduce, ?update, ?sealing, ?flush, ?epoch, ?snapshot, ?transfer⟩
  case matrix =>
    intro c hc hx ts t hm
    rw [exec_matrix hb hc hx]
    refine ⟨fun hj => ?_, fun v hj hv => ?_⟩
    · rw [runMatrix_of_nextJoins hm hj]; rfl
    · rw [runMatrix_of_output hm hj hv]
  case reduce =>
    intro hx bs t hcount hl
    rw [exec_reduce hb hx]
    refine ⟨fun v hr hv => ?_, fun hr ha => ?_⟩
    · rw [runReduce_of_local hcount hl hr hv]
    · rw [runReduce_of_remote hcount hl hr ha]; rfl
  case update =>
    intro hx bs t hp
    rw [exec_update hb hx]
    refine ⟨fun hw v hv => ?_, fun sb u hw hs => ⟨fun hf => ?_, fun f hf v hv => ?_⟩⟩
    · rw [runUpdate_without_norm hp hw, applyUpdate_of_units hv]
    · rw [runUpdate_of_no_factor hp hw hs hf]
    · rw [runUpdate_of_factor hp hw hs hf, applyUpdate_of_units hv]
  case sealing =>
    intro hx
    rw [exec_seal hb hx]
    refine ⟨fun hw => ?_, fun lb t hw hl => ⟨fun hd => ?_, fun hd hh => ?_, fun hd hh => ?_⟩⟩
    · rw [runSeal_of_no_loss hw]
    · rw [runSeal_of_no_spike hw hl hd]
    · rw [runSeal_of_spike hw hl hd hh]
    · rw [runSeal_of_fatal_spike hw hl hd hh]
  case flush =>
    intro hx
    refine ⟨exec_flush hb hx, fun hw l => not_read_of_mem_lines_runFlush hw, fun q hq => ?_⟩
    exact begun_runFlush (seq_of_executing hx ▸ hq)
  case epoch =>
    intro hx
    refine ⟨exec_epoch hb hx, creg_runEpoch n o s, fun hw l => not_read_of_mem_lines_runEpoch hw, fun q hq => ?_⟩
    exact begun_runEpoch (seq_of_executing hx ▸ hq)
  case snapshot =>
    intro hx
    refine ⟨exec_snapshot_early hx, fun ht => ?_⟩
    rw [exec_snapshot hb hx ht]
    refine ⟨fun r hr hl => ?_, fun r hr hl hd => ?_, fun r v hr hl hd hv => ?_⟩
    · rw [runSnapshot_of_latching hr hl]
    · rw [runSnapshot_without_dump hr hl hd]
    · rw [runSnapshot_of_dump hr hl hd hv]
  case transfer =>
    intro hx
    refine ⟨exec_transfer hx, askBurst_of_local, fun hlive hleft h3 hissue hnone hroom => ?_,
      fun hlive hleft h2 hgood hnone => ?_⟩
    · rw [askBurst_of_host hlive hleft h3 hissue hnone hroom, hostRead_out]; rfl
    · exact askBurst_of_remote hlive hleft h2 hgood hnone

end Sys2Proof.Proofs
end

