-- ==== Sys2Proof/Proofs/Residues.lean ====
section
/-! PROOFS. Residues.lean: the residues of R118 as integers modulo M = 2^64 − 1, and why the lane compare of R119
passes on right window contents: both of its sides are Σ over lanes l and K positions k of
Ea(l, k) × 2^sa(l, k) × Eb(k) × 2^sb(k), modulo M. -/
namespace Sys2Proof.Proofs
open Sys2Proof Sys2Proof.Machine

/-! ## Sums over the first numbers -/

/-- Σ over i < n of f i, as the checks form it. -/
def sumTo (n : Nat) (f : Nat → Int) : Int := ((List.range n).map f).sum

@[simp] theorem sumTo_zero (f : Nat → Int) : sumTo 0 f = 0 := rfl

@[simp] theorem sumTo_succ (n : Nat) (f : Nat → Int) : sumTo (n + 1) f = sumTo n f + f n := by
  simp only [sumTo, List.range_succ, List.map_append, List.map_cons, List.map_nil, List.sum_append, List.sum_cons,
    List.sum_nil, Int.add_zero]

theorem sumTo_congr {n : Nat} {f g : Nat → Int} (h : ∀ i, i < n → f i = g i) : sumTo n f = sumTo n g := by
  rw [sumTo, sumTo, List.map_congr_left fun i hi => h i (List.mem_range.mp hi)]

theorem sumTo_emod_congr {m : Int} {n : Nat} {f g : Nat → Int} (h : ∀ i, i < n → f i % m = g i % m) :
    sumTo n f % m = sumTo n g % m := by
  induction n with
  | zero => rfl
  | succ n ih =>
    rw [sumTo_succ, sumTo_succ, Int.add_emod, ih fun i hi => h i (Nat.lt_succ_of_lt hi), h n (Nat.lt_succ_self n),
      ← Int.add_emod]

theorem sumTo_mul (n : Nat) (f : Nat → Int) (c : Int) : sumTo n f * c = sumTo n (fun i => f i * c) := by
  induction n with
  | zero => rw [sumTo_zero, sumTo_zero, Int.zero_mul]
  | succ n ih => rw [sumTo_succ, sumTo_succ, Int.add_mul, ih]

theorem sumTo_fun_zero (n : Nat) : sumTo n (fun _ => 0) = 0 := by
  induction n with
  | zero => rfl
  | succ n ih => rw [sumTo_succ, ih, Int.add_zero]

theorem sumTo_fun_add (n : Nat) (f g : Nat → Int) : sumTo n (fun i => f i + g i) = sumTo n f + sumTo n g := by
  induction n with
  | zero => rfl
  | succ n ih => rw [sumTo_succ, sumTo_succ, sumTo_succ, ih]; ac_rfl

theorem sumTo_comm (n m : Nat) (f : Nat → Nat → Int) :
    sumTo n (fun i => sumTo m (fun j => f i j)) = sumTo m (fun j => sumTo n (fun i => f i j)) := by
  induction n with
  | zero => exact (sumTo_fun_zero m).symm
  | succ n ih => simp only [sumTo_succ, sumTo_fun_add, ih]

theorem sumTo_add (n m : Nat) (f : Nat → Int) : sumTo (n + m) f = sumTo n f + sumTo m (fun i => f (n + i)) := by
  induction m with
  | zero => rw [sumTo_zero, Nat.add_zero, Int.add_zero]
  | succ m ih => rw [← Nat.add_assoc, sumTo_succ, sumTo_succ, ih, Int.add_assoc]

/-- A sum over positions that lie in groups of `n`. -/
theorem sumTo_groups (n groups : Nat) (f : Nat → Int) :
    sumTo (n * groups) f = sumTo groups (fun g => sumTo n (fun i => f (g * n + i))) := by
  induction groups with
  | zero => rfl
  | succ m ih => rw [Nat.mul_succ, sumTo_add, ih, sumTo_succ, Nat.mul_comm n m]

theorem natCast_sum_range (n : Nat) (f : Nat → Nat) :
    ((((List.range n).map f).sum : Nat) : Int) = sumTo n (fun i => (f i : Int)) := by
  induction n with
  | zero => rfl
  | succ n ih =>
    simp only [sumTo_succ, ← ih, List.range_succ, List.map_append, List.map_cons, List.map_nil, List.sum_append,
      List.sum_cons, List.sum_nil, Nat.add_zero, Int.natCast_add]

theorem map_eq_map_range_getD {α β : Type} (l : List α) (d : α) (f : α → β) :
    l.map f = (List.range l.length).map (fun i => f (l.getD i d)) := by
  refine List.ext_getElem (by simp) fun i h _ => ?_
  have hi : i < l.length := by simpa using h
  simp only [List.getElem_map, List.getElem_range, List.getD_eq_getElem?_getD, List.getElem?_eq_getElem hi,
    Option.getD_some]

/-! ## Rotations and elements -/

/-- 2^64 is 1 modulo M: why a rotation may take its exponent modulo 64 (R118). -/
theorem two_pow_emod (e : Nat) : 2 ^ (e % 64) % resM = 2 ^ e % resM := by
  have hq : (2 ^ 64) ^ (e / 64) % resM = 1 % resM := by
    have h64 : 2 ^ 64 % resM = 1 := by decide
    rw [Nat.pow_mod, h64, Nat.one_pow]
  calc 2 ^ (e % 64) % resM
      = 2 ^ (e % 64) * 1 % resM := by rw [Nat.mul_one]
    _ = 2 ^ (e % 64) * (2 ^ 64) ^ (e / 64) % resM := by rw [Nat.mul_mod, ← hq, ← Nat.mul_mod]
    _ = 2 ^ e % resM := by rw [← Nat.pow_mul, ← Nat.pow_add, Nat.mod_add_div]

theorem natCast_mod_resM (a : Nat) : ((a % resM : Nat) : Int) % (resM : Int) = a % (resM : Int) := by
  rw [Int.natCast_emod, Int.emod_emod]

theorem rot_emod (x : Int) (e : Nat) : (rot x e : Int) % (resM : Int) = x * 2 ^ e % (resM : Int) := by
  have hx : 0 ≤ x % (resM : Int) := Int.emod_nonneg x (by decide)
  have hpow : (2 : Int) ^ (e % 64) % (resM : Int) = 2 ^ e % (resM : Int) := by
    have h : ((2 ^ (e % 64) % resM : Nat) : Int) = (2 ^ e % resM : Nat) := by rw [two_pow_emod]
    rwa [Int.natCast_emod, Int.natCast_emod, Int.natCast_pow, Int.natCast_pow] at h
  rw [rot, natCast_mod_resM, Int.natCast_mul, Int.toNat_of_nonneg hx, Int.natCast_pow, Int.mul_emod, Int.emod_emod]
  exact (congrArg (fun p => x % (resM : Int) * p % (resM : Int)) hpow).trans (Int.mul_emod ..).symm

/-- An element with its scale: the integer whose residue is the element's (R118). -/
def scaled (e : ChkElt) : Int := e.1 * 2 ^ e.2

/-- A row whose elements have one scale byte a group (R118). -/
def GroupScaled (n groups : Nat) (r : List ChkElt) : Prop :=
  ∀ g, g < groups → ∀ i, i < n → (r.getD (g * n + i) (0, 0)).2 = groupScale r g n

/-! ## The two sides of the lane compare -/

/-- What a lane whose row is `r` adds to either side. -/
def laneSum (b : List ChkElt) (kr : Nat) (r : List ChkElt) : Int :=
  sumTo kr (fun k => scaled (r.getD k (0, 0)) * scaled (b.getD k (0, 0)))

theorem windowOf_eq_sumTo (r b : List ChkElt) (g n : Nat) :
    windowOf r b g n = sumTo n (fun i => (r.getD (g * n + i) (0, 0)).1 * (b.getD (g * n + i) (0, 0)).1) := rfl

/-- The right window contents of a lane, scaled, are its element products. -/
theorem sumTo_windowOf {n groups : Nat} {r b : List ChkElt} (hr : GroupScaled n groups r) (hb : GroupScaled n groups b) :
    sumTo groups (fun g => windowOf r b g n * 2 ^ (groupScale r g n + groupScale b g n)) =
      laneSum b (n * groups) r := by
  rw [laneSum, sumTo_groups]
  refine sumTo_congr fun g hg => ?_
  rw [windowOf_eq_sumTo, sumTo_mul]
  refine sumTo_congr fun i hi => ?_
  rw [scaled, scaled, hr g hg i hi, hb g hg i hi, Int.pow_add]
  ac_rfl

theorem laneLeft_emod (rows : List (List ChkElt)) (b : List ChkElt) (n groups : Nat) (w : Nat → Nat → Int) :
    (laneLeft rows b n groups w : Int) % (resM : Int) = sumTo rows.length (fun l => sumTo groups (fun g =>
      w l g * 2 ^ (groupScale (rows.getD l []) g n + groupScale b g n))) % (resM : Int) := by
  rw [laneLeft, natCast_mod_resM, natCast_sum_range]
  refine sumTo_emod_congr fun l _ => ?_
  rw [natCast_sum_range]
  exact sumTo_emod_congr fun g _ => rot_emod _ _

theorem laneRight_emod (row : List Nat) (b : List ChkElt) (kr : Nat) :
    (laneRight row b kr : Int) % (resM : Int) =
      sumTo kr (fun k => (row.getD k 0 : Int) * scaled (b.getD k (0, 0))) % (resM : Int) := by
  rw [laneRight, natCast_mod_resM, natCast_sum_range]
  refine sumTo_emod_congr fun k _ => ?_
  rw [rot_emod, scaled, Int.mul_assoc]

theorem checkRow_emod (rows : List (List ChkElt)) (k : Nat) : (checkRow rows k : Int) % (resM : Int) =
    sumTo rows.length (fun l => scaled ((rows.getD l []).getD k (0, 0))) % (resM : Int) := by
  rw [checkRow, natCast_mod_resM, map_eq_map_range_getD rows [], natCast_sum_range]
  exact sumTo_emod_congr fun l _ => rot_emod _ _

/-- The right side, from the checksum row of the lanes, lane by lane. -/
theorem laneRight_checkRow_emod (rows : List (List ChkElt)) (b : List ChkElt) (kr : Nat) :
    (laneRight ((List.range kr).map (checkRow rows)) b kr : Int) % (resM : Int) =
      sumTo rows.length (fun l => laneSum b kr (rows.getD l [])) % (resM : Int) := by
  simp only [laneSum]
  rw [laneRight_emod, sumTo_comm]
  refine sumTo_emod_congr fun k hk => ?_
  have hrow : ((List.range kr).map (checkRow rows)).getD k 0 = checkRow rows k := by
    rw [List.getD_eq_getElem?_getD, List.getElem?_map, List.getElem?_range hk, Option.map_some, Option.getD_some]
  rw [hrow, ← sumTo_mul, Int.mul_emod, checkRow_emod, ← Int.mul_emod]

theorem lanePass_of_emod_eq {rows : List (List ChkElt)} {row : List Nat} {b : List ChkElt} {n kr : Nat}
    {w : Nat → Nat → Int}
    (h : (laneLeft rows b n (kr / n) w : Int) % (resM : Int) = (laneRight row b kr : Int) % (resM : Int)) :
    lanePass rows row b n kr w 0 = true := by
  have hm : laneLeft rows b n (kr / n) w % resM = laneRight row b kr % resM := by
    rwa [← Int.natCast_emod, ← Int.natCast_emod, Int.natCast_inj] at h
  have hl : laneLeft rows b n (kr / n) w % resM = laneLeft rows b n (kr / n) w := Nat.mod_mod _ _
  rw [lanePass, beq_iff_eq, Nat.add_zero, ← hm, hl]

/-- Right window contents pass the lane compare, whatever the rows hold (R119). -/
theorem lanePass_windowOf {rows : List (List ChkElt)} {b : List ChkElt} {n groups : Nat}
    (hs : ∀ r ∈ b :: rows, GroupScaled n groups r) :
    lanePass rows ((List.range (n * groups)).map (checkRow rows)) b n (n * groups)
      (fun l g => windowOf (rows.getD l []) b g n) 0 = true := by
  obtain ⟨hb, hrows⟩ := List.forall_mem_cons.mp hs
  refine lanePass_of_emod_eq ?_
  rw [laneLeft_emod, laneRight_checkRow_emod]
  refine congrArg (· % (resM : Int)) (sumTo_congr fun l hl => ?_)
  have hr : GroupScaled n groups (rows.getD l []) := by
    rw [List.getD_eq_getElem?_getD, List.getElem?_eq_getElem hl, Option.getD_some]
    exact hrows _ (List.getElem_mem _)
  rcases Nat.eq_zero_or_pos n with rfl | hn
  · rw [laneSum, Nat.zero_mul, Nat.zero_div, sumTo_zero, sumTo_zero]
  · rw [Nat.mul_div_cancel_left _ hn]
    exact sumTo_windowOf hr hb

end Sys2Proof.Proofs
end

