-- ==== Sys2Proof/Proofs/ResultChecking.lean ====
section
/-! PROOFS. ResultChecking.lean: the statement on the mismatches that the checks find (05_result_checking.md). -/
namespace Sys2Proof.Proofs
open Sys2Proof Sys2Proof.Machine

/-! ## What the compares deliver -/

/-- An operation under no compare fails none (R117, R126). -/
theorem verdicts_of_unchecked {o : Op} (h : unchecked o = true) (ts : List TileRes) (faults : List CoreFault) :
    verdicts o ts faults = [] := by
  have hc : compared o = false := by simp [compared, h]
  rw [verdicts, List.filterMap_eq_nil_iff]
  intro f _
  split
  · simp [hc]
  · rfl

section Mismatch

variable {s t : State} {n : Nat} {o : Op} {faults : List CoreFault} {ts : List TileRes}

/-! ## A mismatch of an operation in flight (R127) -/

/-- The state in which the failing cores have stopped: an operation that ran leaves what its finished tiles wrote, one
that had finished leaves the state as it is. -/
def coresStopped (n : Nat) (o : Op) (faults : List CoreFault) (fs : List CoreFail) (ts : List TileRes) (s t : State) :
    State :=
  if o.begun = true then s else stopMatrix n o faults fs ts t

theorem mismatch_of_fails (hc : matCompute n o (linkedTo (chOf s n) o) s = (.ok (.ok ts), t)) {f : CoreFail}
    {l : List CoreFail} (hv : sortFails (verdicts o ts faults) = f :: l) :
    mismatch n o faults s = poison n ((opOf (chOf (coresStopped n o faults (f :: l) ts s t) n) o.seq).getD o) f l
      (coresStopped n o faults (f :: l) ts s t) := by
  simp only [mismatch, hc, hv, coresStopped]

theorem mismatch_of_pass (hc : matCompute n o (linkedTo (chOf s n) o) s = (.ok (.ok ts), t))
    (hv : sortFails (verdicts o ts faults) = []) : mismatch n o faults s = s := by
  simp only [mismatch, hc, hv]

/-! ## A mismatch of an operation that a halt stopped (R130) -/

/-- The failures are recorded, and the operation is no longer among those a halt stopped. -/
theorem lateMismatch_eq (hc : matCompute n o false s = (.ok (.ok ts), t)) :
    lateMismatch n o faults s = modCh n (fun c => { c with stopped := c.stopped.filter (fun q => q.seq != o.seq) })
      (recordFails n o.seq (sortFails (verdicts o ts faults)) s) := by
  simp only [lateMismatch, hc]

/-- A halt stopped only operations that carry the number they are found by. -/
theorem seq_of_stoppedOp {seq : W32} (h : stoppedOp s n seq = some o) : o.seq = seq := by
  obtain ⟨-, hf⟩ := Option.ite_none_right_eq_some.mp h
  simpa using List.find?_some hf

theorem stoppedOp_filter (seq : W32) (s : State) :
    stoppedOp (modCh n (fun c => { c with stopped := c.stopped.filter (fun q => q.seq != seq) }) s) n seq = none := by
  have hf : (((chOf s n).stopped.filter (fun q => q.seq != seq)).find? (fun q => q.seq == seq)) = none := by
    simp
  simp only [stoppedOp, chOf_modCh_same, hf, ite_self]

end Mismatch

/-! ## The command -/

section Command

variable {s : State} {n : Fin 32} {seq : W32} {o : Op} {faults : List CoreFault}

theorem exec_checkMismatch (n : Fin 32) (seq : W32) (faults : List CoreFault) (s : State) :
    exec (.checkMismatch n seq faults) s = execCheckMismatch n seq faults s := rfl

theorem checkMismatch_inFlight (ho : opOf (chOf s n) seq = some o) (ht : opType o = 1 ∨ opType o = 2)
    (he : entered o = true) (hc : openCompares (chOf s n) o = true) :
    exec (.checkMismatch n seq faults) s = .next (settleAll n (mismatch n o faults s)) := by
  have htype : (opType o == 1 || opType o == 2) = true := by simpa using ht
  simp only [exec_checkMismatch, execCheckMismatch, ho, htype, he, hc, Bool.and_self, if_true]

/-- Another operation, one that has not entered the engines, and one whose compares are over (R103, R125). -/
theorem checkMismatch_notOpen (ho : opOf (chOf s n) seq = some o)
    (h : (opType o ≠ 1 ∧ opType o ≠ 2) ∨ entered o = false ∨ openCompares (chOf s n) o = false) :
    exec (.checkMismatch n seq faults) s = .next s := by
  have hg : ((opType o == 1 || opType o == 2) && entered o && openCompares (chOf s n) o) = false := by
    rcases h with ⟨h1, h2⟩ | he | hc
    · simp [h1, h2]
    · simp [he]
    · simp [hc]
  simp only [exec_checkMismatch, execCheckMismatch, ho, hg, Bool.false_eq_true, if_false]

theorem checkMismatch_stopped (ho : opOf (chOf s n) seq = none) (hs : stoppedOp s n seq = some o)
    (ht : opType o = 1 ∨ opType o = 2) (hb : o.begun = false) :
    exec (.checkMismatch n seq faults) s = .next (lateMismatch n o faults s) := by
  have htype : (opType o == 1 || opType o == 2) = true := by simpa using ht
  simp only [exec_checkMismatch, execCheckMismatch, ho, hs, htype, hb, Bool.not_false, Bool.and_self, if_true]

theorem checkMismatch_noOperation (ho : opOf (chOf s n) seq = none) (hs : stoppedOp s n seq = none) :
    exec (.checkMismatch n seq faults) s = .next s := by
  simp only [exec_checkMismatch, execCheckMismatch, ho, hs]

end Command

/-- Settles O42: the command is `mismatch` while the operation's compares are open and `lateMismatch` once a halt has
stopped it; right window contents pass because both sides of the lane compare are one residue. -/
theorem checkMismatchesPoisonTheOperation : Obligations.CheckMismatchesPoisonTheOperation := by
  unfold Obligations.CheckMismatchesPoisonTheOperation
  refine ⟨?inFlight, ?notOpen, ?unchecked, ?stopped, ?noOperation, ?rightResult⟩
  case inFlight =>
    intro s t n seq o faults ts ho ht he hc hm
    obtain rfl := seq_of_opOf ho
    rw [checkMismatch_inFlight ho ht he hc]
    refine ⟨fun f l hv => ?_, fun hv => ?_⟩
    · rw [mismatch_of_fails hm hv]; rfl
    · rw [mismatch_of_pass hm hv]
  case notOpen => exact fun s n seq o faults ho h => checkMismatch_notOpen ho h
  case unchecked => exact fun o ts faults h => verdicts_of_unchecked h ts faults
  case stopped =>
    intro s t n seq o faults ts ho hs ht hb hm
    obtain rfl := seq_of_stoppedOp hs
    rw [checkMismatch_stopped ho hs ht hb, lateMismatch_eq hm]
    exact ⟨_, rfl, stoppedOp_filter o.seq _, rfl⟩
  case noOperation => exact fun s n seq faults ho hs => checkMismatch_noOperation ho hs
  case rightResult => exact fun rows b n groups hs => lanePass_windowOf hs

end Sys2Proof.Proofs
end

