-- ==== Sys2Proof/Proofs/Halting.lean ====
section
/-! PROOFS. Halting.lean: what raising an event and halting do to a chamber's state (R232, R375, R409). -/
namespace Sys2Proof.Proofs
open Sys2Proof Sys2Proof.Machine

/-! ## What leaves every chamber as it is -/

theorem chOf_of_chambers {s t : State} (h : t.chambers = s.chambers) (n : Nat) : chOf t n = chOf s n := by
  simp [chOf, h]

theorem chambers_ifdo {f : State → State} {s : State} (hf : (f s).chambers = s.chambers) (b : Bool) :
    (ifdo b f s).chambers = s.chambers := by
  cases b with
  | false => rfl
  | true => exact hf

theorem chambers_forAll {α : Type} {f : α → State → State} (hf : ∀ a s, (f a s).chambers = s.chambers) (l : List α)
    (s : State) : (forAll l f s).chambers = s.chambers := by
  induction l generalizing s with
  | nil => rfl
  | cons a l ih => exact (ih (f a s)).trans (hf a s)

@[simp] theorem chambers_galPut (core off : Nat) (bs : Bytes) (s : State) : (galPut core off bs s).chambers = s.chambers := rfl

@[simp] theorem chambers_dropGroups (n : Nat) (s : State) : (dropGroups n s).chambers = s.chambers := rfl

@[simp] theorem chambers_sendVec (fn : Fn) (v : Nat) (s : State) : (sendVec fn v s).chambers = s.chambers := by
  unfold sendVec
  simp only [apply_ite State.chambers, emit_chambers, ite_self]

@[simp] theorem chambers_signalVec (fn : Fn) (v us : Nat) (s : State) : (signalVec fn v us s).chambers = s.chambers := by
  simp only [signalVec]
  split
  · simp only [apply_ite State.chambers, chambers_sendVec, ite_self]
  · exact chambers_sendVec fn v s

@[simp] theorem chambers_signalRing (r : Option Nat) (code : Nat) (fatal : Bool) (s : State) :
    (signalRing r code fatal s).chambers = s.chambers := by
  cases r with
  | none => exact chambers_signalVec _ _ _ s
  | some n => simp only [signalRing, apply_ite State.chambers, chambers_signalVec, ite_self]

@[simp] theorem chambers_countEvent (r : Option Nat) (s : State) : (countEvent r s).chambers = s.chambers := by
  cases r <;> rfl

@[simp] theorem chambers_copyStream (n i : Nat) (s : State) : (copyStream n i s).chambers = s.chambers := by
  simp only [copyStream]
  split <;> simp only [chambers_galPut]

@[simp] theorem chambers_countRetired (n : Nat) (os : List Op) (s : State) : (countRetired n os s).chambers = s.chambers := by
  refine chambers_forAll (fun o t => ?_) os _
  cases timeBank (opType o) <;> rfl

/-! ## What leaves a chamber's own state as it is -/

/-- A change that keeps a chamber's own state keeps that of every chamber. -/
theorem st_modCh {f : Chamber → Chamber} (hf : ∀ c, (f c).st = c.st) (n m : Nat) (s : State) :
    (chOf (modCh n f s) m).st = (chOf s m).st := by
  by_cases hm : m = n
  · subst hm; rw [chOf_modCh_same, hf]
  · rw [chOf_modCh_ne hm]

@[simp] theorem st_cset (off : Nat) (v : W32) (c : Chamber) : (cset off v c).st = c.st := rfl

@[simp] theorem st_ccount (off k : Nat) (c : Chamber) : (ccount off k c).st = c.st := rfl

@[simp] theorem st_caddPair (off k : Nat) (c : Chamber) : (caddPair off k c).st = c.st := by
  simp only [caddPair, csetPair, st_cset]

@[simp] theorem st_echFault (code seq addr b : Nat) (c : Chamber) : (echFault code seq addr b c).st = c.st := by
  simp only [echFault, cmod, apply_ite Chamber.st, csetPair, st_cset, ite_self]

@[simp] theorem st_ringSet (r : Option Nat) (off : Nat) (v : W32) (s : State) (m : Nat) :
    (chOf (ringSet r off v s) m).st = (chOf s m).st := by
  cases r with
  | none => rfl
  | some n => exact st_modCh (st_cset _ v) n m s

@[simp] theorem st_dropRecord (r : Option Nat) (s : State) (m : Nat) : (chOf (dropRecord r s) m).st = (chOf s m).st := by
  cases r with
  | none => rfl
  | some n => simp only [dropRecord, chOf_bumpCh, st_ringSet]

@[simp] theorem st_writeRecord (r : Option Nat) (code : Nat) (fatal : Bool) (rec : Bytes) (s : State) (m : Nat) :
    (chOf (writeRecord r code fatal rec s) m).st = (chOf s m).st := by
  unfold writeRecord
  split
  · exact st_dropRecord r s m
  · rw [chOf_of_chambers (chambers_signalRing _ _ _ _), chOf_of_chambers (chambers_ifdo (by exact emit_chambers _ _) _),
      st_ringSet, hostWrite, chOf_emit]

/-! ## A halt, and an event -/

/-- A chamber that was IDLE, RUNNING or HALTED is HALTED after a halt (R409). -/
theorem halted_haltCh {n code : Nat} {s : State}
    (h : (chOf s n).st = .idle ∨ (chOf s n).st = .running ∨ (chOf s n).st = .halted) :
    (chOf (haltCh n code s) n).st = .halted := by
  unfold haltCh
  by_cases hl : (chOf s n).st = .idle ∨ (chOf s n).st = .running
  · simp only [if_pos hl]
    rw [chOf_of_chambers (chambers_dropGroups n _), chOf_of_chambers (chambers_forAll (chambers_copyStream n) _ _),
      chOf_of_chambers (chambers_countRetired _ _ _), chOf_setCh_same, st_cset, st_ccount]
  · rw [if_neg hl]
    exact (or_assoc.mpr h).resolve_left hl

theorem st_haltCh_or (n code : Nat) (s : State) :
    (chOf (haltCh n code s) n).st = (chOf s n).st ∨ (chOf (haltCh n code s) n).st = .halted := by
  by_cases hl : (chOf s n).st = .idle ∨ (chOf s n).st = .running
  · exact .inr (halted_haltCh (or_assoc.mp (.inl hl)))
  · exact .inl (by rw [haltCh, if_neg hl])

/-- A record that cannot be issued halts at most the chamber of its ring (R375). -/
theorem st_ringFail_or {r : Option Nat} {n : Nat} (hr : r = none ∨ r = some n) (s : State) :
    (chOf (ringFail r s) n).st = (chOf s n).st ∨ (chOf (ringFail r s) n).st = .halted := by
  obtain rfl | rfl := hr
  · exact .inl (st_dropRecord none s n)
  · simpa only [ringFail, chOf_of_chambers (chambers_countEvent _ _), st_dropRecord] using
      st_haltCh_or n 0x1103 (countEvent (some n) (dropRecord (some n) s))

theorem st_raiseRec_or {r : Option Nat} {n : Nat} (hr : r = none ∨ r = some n) (code : Nat) (fatal : Bool) (rec : Bytes)
    (s : State) : (chOf (raiseRec r code fatal rec s) n).st = (chOf s n).st ∨
      (chOf (raiseRec r code fatal rec s) n).st = .halted := by
  let u := ifdo (toOperator code) (emit (.pldm (BitVec.ofNat 16 code))) (countEvent r s)
  have hu : (chOf (writeRecord r code fatal rec u) n).st = (chOf s n).st := by
    rw [st_writeRecord, chOf_of_chambers ((chambers_ifdo (by exact emit_chambers _ _) _).trans (chambers_countEvent r s))]
  unfold raiseRec
  by_cases hs : ringStuck u r = true
  · rw [if_pos hs, ← hu]
    exact st_ringFail_or hr _
  · rw [if_neg hs]
    exact .inl hu

/-- An event that names a chamber leaves its state, or halts it where its record cannot be issued (R375). -/
theorem st_event_or (n code seq : Nat) (details : List Nat) (s : State) :
    (chOf (event n code seq details s) n).st = (chOf s n).st ∨ (chOf (event n code seq details s) n).st = .halted := by
  have hr : ringOf s n = none ∨ ringOf s n = some n := by
    unfold ringOf
    split
    · exact .inr rfl
    · exact .inl rfl
  exact st_raiseRec_or hr code _ _ _

end Sys2Proof.Proofs
end

