-- ==== Sys2Proof/Proofs/RemoteMemory.lean ====
section
/-! PROOFS. RemoteMemory.lean: the statement on accesses to remote memory, at the owner and at the sender
(08_echo_cache.md). -/
namespace Sys2Proof.Proofs
open Sys2Proof Sys2Proof.Machine

/-! ## Taking an arrived packet -/

section Arrival

variable {ptype : Nat} {serve : Packet → State → State} {s t : State} {p : Packet}

/-- The packet taken is the oldest arrived one of its type. -/
theorem find_of_takeArrived (h : takeArrived ptype s = some (p, t)) :
    s.arrived.find? (fun q => q.ptype == ptype) = some p := by
  unfold takeArrived at h
  split at h
  next q hq => obtain ⟨rfl, -⟩ := Prod.mk.inj (Option.some.inj h); exact hq
  next => cases h

theorem find_of_takeArrived_none (h : takeArrived ptype s = none) :
    s.arrived.find? (fun q => q.ptype == ptype) = none := by
  unfold takeArrived at h
  split at h
  next => cases h
  next hq => exact hq

theorem withArrived_of_taken (h : takeArrived ptype s = some (p, t)) : withArrived ptype serve s = .next (serve p t) := by
  simp only [withArrived, h]

theorem withArrived_of_none (h : takeArrived ptype s = none) : withArrived ptype serve s = .next s := by
  simp only [withArrived, h]

theorem withRoom_of_taken (h : takeArrived ptype s = some (p, t)) (hroom : answerRoom s p = true) :
    withRoom ptype serve s = .next (serve p t) := by
  simp only [withRoom, find_of_takeArrived h, if_pos hroom, withArrived_of_taken h]

theorem withRoom_of_full (h : takeArrived ptype s = some (p, t)) (hroom : answerRoom s p = false) :
    withRoom ptype serve s = .next s := by
  simp only [withRoom, find_of_takeArrived h, hroom, Bool.false_eq_true, if_false]

theorem withRoom_of_none (h : takeArrived ptype s = none) : withRoom ptype serve s = .next s := by
  simp only [withRoom, find_of_takeArrived_none h]

end Arrival

/-! ## The commands -/

theorem exec_read (s : State) : exec .read s = withRoom 1 serveRead s := rfl
theorem exec_store (s : State) : exec .store s = withRoom 2 serveStore s := rfl
theorem exec_atomic (s : State) : exec .atomic s = withRoom 3 serveAtomic s := rfl
theorem exec_signalPacket (s : State) : exec .signalPacket s = withRoom 4 serveSignal s := rfl
theorem exec_reducePacket (s : State) : exec .reducePacket s = withRoom 0x10 serveReduce s := rfl
theorem exec_readData (s : State) : exec .readData s = withArrived 8 serveData s := rfl
theorem exec_ack (s : State) : exec .ack s = withArrived 9 serveAck s := rfl
theorem exec_ackDeadline (n : Fin 32) (tag : BitVec 20) (s : State) :
    exec (.ackDeadline n tag) s = execAckDeadline n tag s := rfl

/-- Every command of the owner's side takes a packet of its type while there is room for the answer (R288). -/
theorem exec_owner {c : Nat × Instr} (hc : c ∈ [(1, Instr.read), (2, Instr.store), (3, Instr.atomic), (4, Instr.signalPacket),
    (0x10, Instr.reducePacket)]) (s : State) : ∃ serve, exec c.2 s = withRoom c.1 serve s := by
  simp only [List.mem_cons, List.not_mem_nil, or_false] at hc
  obtain rfl | rfl | rfl | rfl | rfl := hc
  · exact ⟨serveRead, exec_read s⟩
  · exact ⟨serveStore, exec_store s⟩
  · exact ⟨serveAtomic, exec_atomic s⟩
  · exact ⟨serveSignal, exec_signalPacket s⟩
  · exact ⟨serveReduce, exec_reducePacket s⟩

/-! ## At the owner -/

section Owner

variable {s u v : State} {p : Packet} {e : MErr}

/-- Check 2 of R204, as each kind of request begins with it. -/
theorem ite_ready (h : ready s p = true) (a b : State) : (if !ready s p then a else b) = b := by
  rw [h]; rfl

theorem ite_notReady (h : ready s p = false) (a b : State) : (if !ready s p then a else b) = a := by
  rw [h]; rfl

theorem serveRead_of_notReady (h : ready s p = false) : serveRead p s = refuseWith p .notReady s := by
  simp only [serveRead, ite_notReady h]

theorem serveStore_of_notReady (h : ready s p = false) : serveStore p s = refuseWith p .notReady s := by
  simp only [serveStore, ite_notReady h]

theorem serveAtomic_of_notReady (h : ready s p = false) : serveAtomic p s = refuseWith p .notReady s := by
  simp only [serveAtomic, ite_notReady h]

theorem serveSignal_of_notReady (h : ready s p = false) : serveSignal p s = refuseWith p .notReady s := by
  simp only [serveSignal, ite_notReady h]

theorem serveReduce_of_notReady (h : ready s p = false) : serveReduce p s = refuseWith p .notReady s := by
  simp only [serveReduce, ite_notReady h]

theorem serveRead_of_load {bs : Bytes} (h : ready s p = true)
    (hl : ownerLoad p.dstCh (pktOspace p) (pktAddr p % 2 ^ 48 / 256 * 256) 256 s = (.ok bs, u)) :
    serveRead p s = inject (answer u p 8 (tagStatus (pktTag p) 0 ++ natLe 4 0 ++ bs)) u := by
  simp only [serveRead, ite_ready h, hl]

theorem serveRead_of_fault (h : ready s p = true)
    (hl : ownerLoad p.dstCh (pktOspace p) (pktAddr p % 2 ^ 48 / 256 * 256) 256 s = (.error e, u)) :
    serveRead p s = refuseFault p e u := by
  simp only [serveRead, ite_ready h, hl]

theorem serveStore_of_store (h : ready s p = true)
    (hs : ownerStore p.dstCh (pktOspace p) (pktAddr p % 2 ^ 48) (p.body.drop 12) s = (.ok (), u)) :
    serveStore p s = acknowledge p 0 0 u := by
  simp only [serveStore, ite_ready h, hs]

theorem serveStore_of_fault (h : ready s p = true)
    (hs : ownerStore p.dstCh (pktOspace p) (pktAddr p % 2 ^ 48) (p.body.drop 12) s = (.error e, u)) :
    serveStore p s = refuseFault p e u := by
  simp only [serveStore, ite_ready h, hs]

/-- An ATOMIC packet that the owner can perform: a function that an ATOM has, at an address that it is aligned to. -/
def legalAtomic (p : Packet) : Prop := pktFunc p ≤ 5 ∧ pktAddr p % 2 ^ 48 % atomWidth (pktFunc p) = 0

/-- The atomic step that an ATOMIC packet asks for. -/
def askedAtomic (p : Packet) (s : State) : Res Nat :=
  atomAt p.dstCh (agent 6) (if pktOspace p = 1 then 1 else 2) (pktAddr p % 2 ^ 48) (pktFunc p) (at_ p.body 16 8)
    (at_ p.body 24 8) s

theorem illegalAtomic_iff (p : Packet) :
    (5 < pktFunc p ∨ pktAddr p % 2 ^ 48 % atomWidth (pktFunc p) ≠ 0) ↔ ¬ legalAtomic p := by
  rw [legalAtomic, Decidable.not_and_iff_or_not, Nat.not_le]

theorem serveAtomic_of_illegal (h : ready s p = true) (hl : ¬ legalAtomic p) :
    serveAtomic p s = refuseWith p .fault s := by
  simp only [serveAtomic, ite_ready h, if_pos ((illegalAtomic_iff p).mpr hl)]

theorem serveAtomic_of_step {old : Nat} (h : ready s p = true) (hl : legalAtomic p) (ha : askedAtomic p s = (.ok old, u)) :
    serveAtomic p s = acknowledge p 0 (BitVec.ofNat 64 old) u := by
  unfold askedAtomic at ha
  simp only [serveAtomic, ite_ready h,
    if_neg (fun hn => (illegalAtomic_iff p).mp hn hl), ha]

theorem serveAtomic_of_fault (h : ready s p = true) (hl : legalAtomic p) (ha : askedAtomic p s = (.error e, u)) :
    serveAtomic p s = refuseFault p e u := by
  unfold askedAtomic at ha
  simp only [serveAtomic, ite_ready h,
    if_neg (fun hn => (illegalAtomic_iff p).mp hn hl), ha]

theorem serveSignal_of_noCounter (h : ready s p = true) (hk : 4095 < at_ p.body 4 2) :
    serveSignal p s = refuseWith p .fault s := by
  simp only [serveSignal, ite_ready h, if_pos hk]

theorem serveSignal_of_counter (h : ready s p = true) (hk : at_ p.body 4 2 ≤ 4095) :
    serveSignal p s = acknowledge p 0 0 (noteWaits p.dstCh (changeCounter p.dstCh (at_ p.body 4 2)
      (signalValue (chOf s p.dstCh) (at_ p.body 4 2) (at_ p.body 6 1) (BitVec.ofNat 32 (at_ p.body 8 4))) s)) := by
  simp only [serveSignal, ite_ready h, if_neg (Nat.not_lt.mpr hk)]

/-! ### REDUCE -/

theorem serveReduce_of_stale (h : ready s p = true) (he : redEpoch p ≠ fld (creg s p.dstCh 0x808) 15 0) :
    serveReduce p s = refuseWith p .stale s := by
  simp only [serveReduce, ite_ready h, if_pos he]

/-- The line of a REDUCE that passes the checks of its space (R204): it lies in the gallery window, or its pages are
writable. -/
def lineOpen (p : Packet) (s v : State) : Prop :=
  let la := pktAddr p % 2 ^ 48 / 256 * 256
  (pktOspace p = 1 ∧ la + 256 ≤ winSize s (chOf s p.dstCh) ∧ v = s) ∨
  (pktOspace p ≠ 1 ∧ allWritable p.dstCh la 256 s = (.ok (), v))

theorem serveReduce_of_load {olds : List (Nat × Bytes)} (h : ready s p = true)
    (he : redEpoch p = fld (creg s p.dstCh 0x808) 15 0) (ho : lineOpen p s v)
    (hl : maskedLoad p.dstCh (pktOspace p) (pktAddr p % 2 ^ 48 / 256 * 256)
      (maskedWords (if pktOspace p = 1 then 32 else 64) (redMask p)) v = (.ok olds, u)) :
    serveReduce p s = acknowledge p 0 0 (olds.foldl (fun x (w : Nat × Bytes) =>
      (ownerStore p.dstCh (pktOspace p) (pktAddr p % 2 ^ 48 / 256 * 256 + w.1)
        (combineWord (redFunc p) (redMask p) (redData p) w.1 w.2) x).2) u) := by
  obtain ⟨hspace, hw, rfl⟩ | ⟨hspace, hw⟩ := ho
  · rw [if_pos hspace] at hl
    simp only [serveReduce, ite_ready h, if_neg (not_not_intro he), if_pos hspace,
      if_neg (Nat.not_lt.mpr hw), hl]
  · rw [if_neg hspace] at hl
    simp only [serveReduce, ite_ready h, if_neg (not_not_intro he), if_neg hspace, hw, hl]

/-- A REDUCE of another epoch halts a RUNNING owner, also where the record of its event cannot be issued. -/
theorem halted_refuseAccess_stale (h : isRunning s p.dstCh = true) :
    (chOf (refuseAccess p .stale s) p.dstCh).st = .halted := by
  have hreg : (chOf (modCh p.dstCh (fun c => echFault 0xA04 0 (pktAddr p) 1 (caddPair 0x830 1 c)) s) p.dstCh).st =
      .running := by
    rw [chOf_modCh_same, st_echFault, st_caddPair]
    exact of_decide_eq_true h
  refine halted_haltCh (.inr ?_)
  rw [← hreg]
  exact st_event_or p.dstCh 0xA04 0 [] _

end Owner

/-! ## At the sender -/

section Sender

variable {s : State} {p : Packet} {r : Req}

/-- The state after an ACK's bytes are counted in the bank of its chamber's leader (Table OBS-2). -/
def ackCounted (p : Packet) (s : State) : State := bump (66 + leaderDie (chOf s p.dstCh)) 8 1 s

theorem serveData_of_old (h : (chOf s p.dstCh).oldTags.contains (pktTag p) = true) :
    serveData p s = oldAnswer p.dstCh (pktTag p) s := by
  simp only [serveData, if_pos h]

theorem serveAck_of_old (h : (chOf s p.dstCh).oldTags.contains (pktTag p) = true) :
    serveAck p s = oldAnswer p.dstCh (pktTag p) (ackCounted p s) := by
  simp only [serveAck, chOf_bump, h, if_true, ackCounted]

section Request

variable (ho : (chOf s p.dstCh).oldTags.contains (pktTag p) = false) (hr : reqOf (chOf s p.dstCh) (pktTag p) = some r)
include ho hr

/-- A returned line frees its request; what more it does the request's state and the STATUS say (R196, R210). -/
theorem serveData_of_request : serveData p s = afterReq p.dstCh
    (if r.late then modCh p.dstCh (dropReq r) s
     else if pktStatus p = 0 then lineReturned p.dstCh r (p.body.drop 8) (modCh p.dstCh (dropReq r) s)
     else requestFailed p.dstCh r (pktStatus p) (modCh p.dstCh (dropReq r) s)) := by
  simp only [serveData, ho, Bool.false_eq_true, if_false, hr, apply_ite (afterReq p.dstCh)]

theorem serveAck_of_request : serveAck p s = afterReq p.dstCh
    (if r.late then modCh p.dstCh (dropReq r) (ackCounted p s)
     else if pktStatus p = 0 then
       acked p.dstCh r (BitVec.ofNat 64 (at_ p.body 8 8)) (modCh p.dstCh (dropReq r) (ackCounted p s))
     else requestFailed p.dstCh r (pktStatus p) (modCh p.dstCh (dropReq r) (ackCounted p s))) := by
  simp only [serveAck, chOf_bump, ho, Bool.false_eq_true, if_false, hr, apply_ite (afterReq p.dstCh), ackCounted]

end Request

/-! ### Deadlines and failures -/

theorem execAckDeadline_of_passed {n : Fin 32} {tag : BitVec 20} (hr : reqOf (chOf s n) tag.toNat = some r)
    (hsent : r.sent = true) (hlate : r.late = false) (hd : r.deadline.toNat ≤ now s) :
    execAckDeadline n tag s = .next (settleAll n (echoFail n r 0xA03
      (modCh n (fun c => { c with reqs := c.reqs.map (fun q => if q.tag = r.tag then { q with late := true } else q) })
        s))) := by
  simp only [execAckDeadline, hr, hsent, hlate, hd, Bool.not_false, and_self, if_true]

theorem execAckDeadline_of_early {n : Fin 32} {tag : BitVec 20} (hr : reqOf (chOf s n) tag.toNat = some r)
    (hd : now s < r.deadline.toNat) : execAckDeadline n tag s = .next s := by
  simp only [execAckDeadline, hr, Nat.not_le.mpr hd, and_false, if_false]

theorem echoFail_of_operation {n code : Nat} (h : ∀ o, opOf (chOf s n) r.seq = some o → opType o ≠ 9) :
    echoFail n r code s = failOp n r.seq .fault code [] (echFault code r.seq.toNat r.addr.toNat 0) s := by
  unfold echoFail
  cases ho : opOf (chOf s n) r.seq with
  | none => rfl
  | some o => exact if_neg (h o ho)

/-- An EPOCH is left to the halt to cancel (R256). -/
theorem echoFail_of_epoch {n code : Nat} {o : Op} (ho : opOf (chOf s n) r.seq = some o) (ht : opType o = 9) :
    echoFail n r code s =
      haltCh n code (event n code r.seq.toNat [] (modCh n (echFault code r.seq.toNat r.addr.toNat 0) s)) := by
  simp only [echoFail, ho, if_pos ht]

end Sender

/-! ## The statement -/

/-- Settles O48: each command takes its packet and does what `serve…` gives for the case; a REDUCE of another epoch
halts its owner because an event leaves a RUNNING chamber RUNNING or HALTED. -/
theorem remoteAccessesAreServedAndAnswered : Obligations.RemoteAccessesAreServedAndAnswered := by
  unfold Obligations.RemoteAccessesAreServedAndAnswered
  refine ⟨⟨?read, ?store, ?atomic, ?signal, ?reduce, ?waits⟩,
    ?readData, ?ack, ?oldData, ?oldAck, ?noAnswer, ?deadline, ?fail⟩
  case read =>
    intro s t p ht hroom
    rw [exec_read, withRoom_of_taken ht hroom]
    exact ⟨fun h => by rw [serveRead_of_notReady h],
      fun bs u h hl => by rw [serveRead_of_load h hl], fun e u h hl => by rw [serveRead_of_fault h hl]⟩
  case store =>
    intro s t p ht hroom
    rw [exec_store, withRoom_of_taken ht hroom]
    exact ⟨fun h => by rw [serveStore_of_notReady h],
      fun u h hs => by rw [serveStore_of_store h hs], fun e u h hs => by rw [serveStore_of_fault h hs]⟩
  case atomic =>
    intro s t p ht hroom legal made
    rw [exec_atomic, withRoom_of_taken ht hroom]
    exact ⟨fun h => by rw [serveAtomic_of_notReady h], fun h hl => by rw [serveAtomic_of_illegal h hl],
      fun old u h hl ha => by rw [serveAtomic_of_step h hl ha], fun e u h hl ha => by rw [serveAtomic_of_fault h hl ha]⟩
  case signal =>
    intro s t p ht hroom
    rw [exec_signalPacket, withRoom_of_taken ht hroom]
    exact ⟨fun h => by rw [serveSignal_of_notReady h], fun h hk => by rw [serveSignal_of_noCounter h hk],
      fun h hk => by rw [serveSignal_of_counter h hk, signalValue]⟩
  case reduce =>
    intro s t p ht hroom la current
    rw [exec_reducePacket, withRoom_of_taken ht hroom]
    exact ⟨fun h => by rw [serveReduce_of_notReady h],
      fun h he => ⟨by rw [serveReduce_of_stale h he], halted_refuseAccess_stale⟩,
      fun v olds u h he ho hl => by rw [serveReduce_of_load h he ho hl]⟩
  case waits =>
    intro s c hc
    obtain ⟨serve, hexec⟩ := exec_owner hc s
    rw [hexec]
    exact ⟨withRoom_of_none, fun p t => withRoom_of_full⟩
  case readData =>
    intro s t p r ht ho hr u
    rw [exec_readData, withArrived_of_taken ht, serveData_of_request ho hr]
    exact ⟨fun hl => by rw [if_pos hl], fun hl h0 => by rw [if_neg (by simp [hl]), if_pos h0],
      fun hl h0 => by rw [if_neg (by simp [hl]), if_neg h0]⟩
  case ack =>
    intro s t p r ht ho hr u
    rw [exec_ack, withArrived_of_taken ht, serveAck_of_request ho hr]
    exact ⟨fun hl => by rw [if_pos hl, ackCounted], fun hl h0 => by rw [if_neg (by simp [hl]), if_pos h0, ackCounted],
      fun hl h0 => by rw [if_neg (by simp [hl]), if_neg h0, ackCounted]⟩
  case oldData =>
    intro s t p ht ho
    rw [exec_readData, withArrived_of_taken ht, serveData_of_old ho]
  case oldAck =>
    intro s t p ht ho
    rw [exec_ack, withArrived_of_taken ht, serveAck_of_old ho, ackCounted]
  case noAnswer => exact fun s => ⟨withArrived_of_none, withArrived_of_none⟩
  case deadline =>
    intro s n tag r hr hsent hlate
    exact ⟨execAckDeadline_of_passed hr hsent hlate, execAckDeadline_of_early hr⟩
  case fail => exact fun s n code r => ⟨echoFail_of_operation, fun o => echoFail_of_epoch⟩

end Sys2Proof.Proofs
end
